-- ==== Sys2Proof/Word.lean ====
section
/-! DEFINITION. The words of the KTZ85 core: bytes, the 32-bit group word and base-85 digits. -/

namespace Sys2Proof

/-- One buffer element: a byte of the binary side or one 8-bit character code (R30, R53). -/
abbrev Byte := BitVec 8

/-- The 32-bit unsigned word a group stands for (R14, R51). -/
abbrev Word := BitVec 32

/-- A base-85 digit, an integer in [0, 84] (R4; the range is the operand type R70 asks for). -/
abbrev Digit := Fin 85

end Sys2Proof
end

