-- ==== Sys2Proof/Config.lean ====
section
/-! DEFINITION. What one build of the core fixes (the OPEN parameters of R5), and the free values: what the
spec calls unspecified. -/

namespace Sys2Proof

/-- `OVF_MODE` (R5, R106): what DECODE does with a group of value 2^32 or more. -/
inductive OvfMode where
  | wrap
  | fault
  deriving DecidableEq, Repr, Inhabited

/-- `ERR_INFO` (R5, R17): whether `ERR_IDX` and `ERR_CHAR` are present. -/
inductive ErrInfo where
  | noInfo
  | indexAndChar
  deriving DecidableEq, Repr, Inhabited

/-- How the model shows an operation. R155 lets a model collapse START, all group steps and DONE into one
transition, or take them one by one; both are modelled. DESIGN CHOICE, log 7. -/
inductive Pace where
  | collapsed
  | stepwise
  deriving DecidableEq, Repr, Inhabited

/-- The parameters of one build (R5). `maxLen = none` is the infinite `MAX_LEN` of R37, and `lenBits = none` are length
registers without a bound, which only such a build has (`Config.wf`; log 12). -/
structure Config where
  /-- `MAX_LEN`. -/
  maxLen  : Option Nat
  /-- `LEN_BITS`. -/
  lenBits : Option Nat
  ovfMode : OvfMode
  errInfo : ErrInfo
  pace    : Pace
  deriving DecidableEq, Repr, Inhabited

/-- Free value: what element `i` of a buffer holds while nothing specified stands there, for draw `gen` of the
counter `State.fresh` (R19, R32, U6, U14). Log 2. -/
opaque Config.freeByte (gen i : Nat) : Byte

/-- Free value: an unspecified `ERR_CHAR` (R17). Log 9. -/
opaque Config.freeChar (draw : Nat) : Byte

/-- Free value: an unspecified `ERR_IDX` (R17), before it is cut to the register's width. Log 9. -/
opaque Config.freeIndex (draw : Nat) : Nat

/-- Free value: what a host read of `STATUS` gives outside R159. Log 10. -/
opaque Config.readStatus (draw : Nat) : BitVec 2

/-- Free value: what a host read of `OUT_LEN` gives outside R159, before it is cut to the register's width.
Log 10. -/
opaque Config.readOutLen (draw : Nat) : Nat

/-- Free value: what a host read of `ERR_IDX` gives outside R159, before it is cut to the register's width.
Log 10. -/
opaque Config.readErrIdx (draw : Nat) : Nat

/-- Free value: what a host read of `ERR_CHAR` gives outside R159. Log 10. -/
opaque Config.readErrChar (draw : Nat) : Byte

/-- Free value: what a host read of `OP` gives in BUSY. Log 19. -/
opaque Config.readOp (draw : Nat) : BitVec 1

/-- Free value: what a host read of `IN_LEN` gives in BUSY, before it is cut to the register's width. Log 19. -/
opaque Config.readLen (draw : Nat) : Nat

/-- Free value: what a host read of element `i` of IBUF gives in BUSY. Log 19. -/
opaque Config.readInput (draw i : Nat) : Byte

/-- Free value: what a host read of element `i` of OBUF gives outside R159. Log 10. -/
opaque Config.readElement (draw i : Nat) : Byte

end Sys2Proof
end

