-- ==== Sys2Proof/Syntax.lean ====
section
/-! DEFINITION. The rows of spec/opcode_table.json (R60): the two commands of format CMD and the 85 symbols of
format SYM8. No row has an operand: IN_LEN is a separate register (R55), and a symbol is its whole code. -/

namespace Sys2Proof

/-- One constructor per row of the opcode table. -/
inductive Instr where
  /-- `ENCODE`: OP = 0 (R80). -/
  | cmdEncode
  /-- `DECODE`: OP = 1 (R100). -/
  | cmdDecode
  /-- `SYM.0`: digit 0, code 0x30 (R11). -/
  | sym0
  /-- `SYM.1`: digit 1, code 0x31 (R11). -/
  | sym1
  /-- `SYM.2`: digit 2, code 0x32 (R11). -/
  | sym2
  /-- `SYM.3`: digit 3, code 0x33 (R11). -/
  | sym3
  /-- `SYM.4`: digit 4, code 0x34 (R11). -/
  | sym4
  /-- `SYM.5`: digit 5, code 0x35 (R11). -/
  | sym5
  /-- `SYM.6`: digit 6, code 0x36 (R11). -/
  | sym6
  /-- `SYM.7`: digit 7, code 0x37 (R11). -/
  | sym7
  /-- `SYM.8`: digit 8, code 0x38 (R11). -/
  | sym8
  /-- `SYM.9`: digit 9, code 0x39 (R11). -/
  | sym9
  /-- `SYM.10`: digit 10, code 0x61 (R11). -/
  | sym10
  /-- `SYM.11`: digit 11, code 0x62 (R11). -/
  | sym11
  /-- `SYM.12`: digit 12, code 0x63 (R11). -/
  | sym12
  /-- `SYM.13`: digit 13, code 0x64 (R11). -/
  | sym13
  /-- `SYM.14`: digit 14, code 0x65 (R11). -/
  | sym14
  /-- `SYM.15`: digit 15, code 0x66 (R11). -/
  | sym15
  /-- `SYM.16`: digit 16, code 0x67 (R11). -/
  | sym16
  /-- `SYM.17`: digit 17, code 0x68 (R11). -/
  | sym17
  /-- `SYM.18`: digit 18, code 0x69 (R11). -/
  | sym18
  /-- `SYM.19`: digit 19, code 0x6A (R11). -/
  | sym19
  /-- `SYM.20`: digit 20, code 0x6B (R11). -/
  | sym20
  /-- `SYM.21`: digit 21, code 0x6C (R11). -/
  | sym21
  /-- `SYM.22`: digit 22, code 0x6D (R11). -/
  | sym22
  /-- `SYM.23`: digit 23, code 0x6E (R11). -/
  | sym23
  /-- `SYM.24`: digit 24, code 0x6F (R11). -/
  | sym24
  /-- `SYM.25`: digit 25, code 0x70 (R11). -/
  | sym25
  /-- `SYM.26`: digit 26, code 0x71 (R11). -/
  | sym26
  /-- `SYM.27`: digit 27, code 0x72 (R11). -/
  | sym27
  /-- `SYM.28`: digit 28, code 0x73 (R11). -/
  | sym28
  /-- `SYM.29`: digit 29, code 0x74 (R11). -/
  | sym29
  /-- `SYM.30`: digit 30, code 0x75 (R11). -/
  | sym30
  /-- `SYM.31`: digit 31, code 0x76 (R11). -/
  | sym31
  /-- `SYM.32`: digit 32, code 0x77 (R11). -/
  | sym32
  /-- `SYM.33`: digit 33, code 0x78 (R11). -/
  | sym33
  /-- `SYM.34`: digit 34, code 0x79 (R11). -/
  | sym34
  /-- `SYM.35`: digit 35, code 0x7A (R11). -/
  | sym35
  /-- `SYM.36`: digit 36, code 0x41 (R11). -/
  | sym36
  /-- `SYM.37`: digit 37, code 0x42 (R11). -/
  | sym37
  /-- `SYM.38`: digit 38, code 0x43 (R11). -/
  | sym38
  /-- `SYM.39`: digit 39, code 0x44 (R11). -/
  | sym39
  /-- `SYM.40`: digit 40, code 0x45 (R11). -/
  | sym40
  /-- `SYM.41`: digit 41, code 0x46 (R11). -/
  | sym41
  /-- `SYM.42`: digit 42, code 0x47 (R11). -/
  | sym42
  /-- `SYM.43`: digit 43, code 0x48 (R11). -/
  | sym43
  /-- `SYM.44`: digit 44, code 0x49 (R11). -/
  | sym44
  /-- `SYM.45`: digit 45, code 0x4A (R11). -/
  | sym45
  /-- `SYM.46`: digit 46, code 0x4B (R11). -/
  | sym46
  /-- `SYM.47`: digit 47, code 0x4C (R11). -/
  | sym47
  /-- `SYM.48`: digit 48, code 0x4D (R11). -/
  | sym48
  /-- `SYM.49`: digit 49, code 0x4E (R11). -/
  | sym49
  /-- `SYM.50`: digit 50, code 0x4F (R11). -/
  | sym50
  /-- `SYM.51`: digit 51, code 0x50 (R11). -/
  | sym51
  /-- `SYM.52`: digit 52, code 0x51 (R11). -/
  | sym52
  /-- `SYM.53`: digit 53, code 0x52 (R11). -/
  | sym53
  /-- `SYM.54`: digit 54, code 0x53 (R11). -/
  | sym54
  /-- `SYM.55`: digit 55, code 0x54 (R11). -/
  | sym55
  /-- `SYM.56`: digit 56, code 0x55 (R11). -/
  | sym56
  /-- `SYM.57`: digit 57, code 0x56 (R11). -/
  | sym57
  /-- `SYM.58`: digit 58, code 0x57 (R11). -/
  | sym58
  /-- `SYM.59`: digit 59, code 0x58 (R11). -/
  | sym59
  /-- `SYM.60`: digit 60, code 0x59 (R11). -/
  | sym60
  /-- `SYM.61`: digit 61, code 0x5A (R11). -/
  | sym61
  /-- `SYM.62`: digit 62, code 0x2E (R11). -/
  | sym62
  /-- `SYM.63`: digit 63, code 0x2D (R11). -/
  | sym63
  /-- `SYM.64`: digit 64, code 0x3A (R11). -/
  | sym64
  /-- `SYM.65`: digit 65, code 0x2B (R11). -/
  | sym65
  /-- `SYM.66`: digit 66, code 0x3D (R11). -/
  | sym66
  /-- `SYM.67`: digit 67, code 0x5E (R11). -/
  | sym67
  /-- `SYM.68`: digit 68, code 0x21 (R11). -/
  | sym68
  /-- `SYM.69`: digit 69, code 0x2F (R11). -/
  | sym69
  /-- `SYM.70`: digit 70, code 0x2A (R11). -/
  | sym70
  /-- `SYM.71`: digit 71, code 0x3F (R11). -/
  | sym71
  /-- `SYM.72`: digit 72, code 0x26 (R11). -/
  | sym72
  /-- `SYM.73`: digit 73, code 0x3C (R11). -/
  | sym73
  /-- `SYM.74`: digit 74, code 0x3E (R11). -/
  | sym74
  /-- `SYM.75`: digit 75, code 0x28 (R11). -/
  | sym75
  /-- `SYM.76`: digit 76, code 0x29 (R11). -/
  | sym76
  /-- `SYM.77`: digit 77, code 0x5B (R11). -/
  | sym77
  /-- `SYM.78`: digit 78, code 0x5D (R11). -/
  | sym78
  /-- `SYM.79`: digit 79, code 0x7B (R11). -/
  | sym79
  /-- `SYM.80`: digit 80, code 0x7D (R11). -/
  | sym80
  /-- `SYM.81`: digit 81, code 0x40 (R11). -/
  | sym81
  /-- `SYM.82`: digit 82, code 0x25 (R11). -/
  | sym82
  /-- `SYM.83`: digit 83, code 0x24 (R11). -/
  | sym83
  /-- `SYM.84`: digit 84, code 0x23 (R11). -/
  | sym84
  deriving DecidableEq, Repr

/-- The digit a symbol row stands for (the row's `digit`); a command has none. -/
def Instr.digit? : Instr → Option Digit
  | .cmdEncode => none
  | .cmdDecode => none
  | .sym0 => some 0
  | .sym1 => some 1
  | .sym2 => some 2
  | .sym3 => some 3
  | .sym4 => some 4
  | .sym5 => some 5
  | .sym6 => some 6
  | .sym7 => some 7
  | .sym8 => some 8
  | .sym9 => some 9
  | .sym10 => some 10
  | .sym11 => some 11
  | .sym12 => some 12
  | .sym13 => some 13
  | .sym14 => some 14
  | .sym15 => some 15
  | .sym16 => some 16
  | .sym17 => some 17
  | .sym18 => some 18
  | .sym19 => some 19
  | .sym20 => some 20
  | .sym21 => some 21
  | .sym22 => some 22
  | .sym23 => some 23
  | .sym24 => some 24
  | .sym25 => some 25
  | .sym26 => some 26
  | .sym27 => some 27
  | .sym28 => some 28
  | .sym29 => some 29
  | .sym30 => some 30
  | .sym31 => some 31
  | .sym32 => some 32
  | .sym33 => some 33
  | .sym34 => some 34
  | .sym35 => some 35
  | .sym36 => some 36
  | .sym37 => some 37
  | .sym38 => some 38
  | .sym39 => some 39
  | .sym40 => some 40
  | .sym41 => some 41
  | .sym42 => some 42
  | .sym43 => some 43
  | .sym44 => some 44
  | .sym45 => some 45
  | .sym46 => some 46
  | .sym47 => some 47
  | .sym48 => some 48
  | .sym49 => some 49
  | .sym50 => some 50
  | .sym51 => some 51
  | .sym52 => some 52
  | .sym53 => some 53
  | .sym54 => some 54
  | .sym55 => some 55
  | .sym56 => some 56
  | .sym57 => some 57
  | .sym58 => some 58
  | .sym59 => some 59
  | .sym60 => some 60
  | .sym61 => some 61
  | .sym62 => some 62
  | .sym63 => some 63
  | .sym64 => some 64
  | .sym65 => some 65
  | .sym66 => some 66
  | .sym67 => some 67
  | .sym68 => some 68
  | .sym69 => some 69
  | .sym70 => some 70
  | .sym71 => some 71
  | .sym72 => some 72
  | .sym73 => some 73
  | .sym74 => some 74
  | .sym75 => some 75
  | .sym76 => some 76
  | .sym77 => some 77
  | .sym78 => some 78
  | .sym79 => some 79
  | .sym80 => some 80
  | .sym81 => some 81
  | .sym82 => some 82
  | .sym83 => some 83
  | .sym84 => some 84

/-- A command as the host gives it, format CMD (R55): the pair (OP, IN_LEN). -/
structure Cmd where
  op    : BitVec 1
  inLen : Nat
  deriving DecidableEq, Repr

end Sys2Proof
end

