-- ==== Sys2Proof/Machine/State.lean ====
section
/-! DEFINITION. The state of the KTZ85 core, its reset value, and the reasons a step stops. The constant tables
FWD and REV are constants of Machine/Operands.lean, since nobody writes them (R10, R41; log 3). -/

namespace Sys2Proof.Machine

/-- `PHASE` (R17, R153): 0 = IDLE, 1 = BUSY. -/
inductive Phase where
  | idle
  | busy
  deriving DecidableEq, Repr, Inhabited

/-- `STATUS` (R17, R130): the four result codes, in the order of their numbers 0 to 3. -/
inductive Status where
  | ok
  | invalidCharacter
  | malformedLength
  | valueOverflow
  deriving DecidableEq, Repr, Inhabited

/-- The errors DECODE raises, with the information `raise` carries (R102, R104, R106, R130). -/
inductive Err where
  /-- The character `x` at index `i` of the text is no symbol. -/
  | invalidCharacter (i : Nat) (x : Byte)
  /-- The text length is 1 modulo 5. -/
  | malformedLength (len : Nat)
  /-- The group whose first character has index `i` has a value of 2^32 or more. -/
  | valueOverflow (i : Nat)
  deriving DecidableEq, Repr

/-- The host's moves (R17, R150, R154, R156): the inputs of the core. DESIGN CHOICE of form, log 5. -/
inductive HostMove where
  /-- Write the command register OP. -/
  | writeOp (v : BitVec 1)
  /-- Write the command register IN_LEN. -/
  | writeLen (n : Nat)
  /-- Write element `i` of IBUF. -/
  | writeIbuf (i : Nat) (v : Byte)
  /-- Signal START. -/
  | start
  /-- Wait for DONE: the core works on while it is BUSY. -/
  | await
  /-- The platform's reset event. -/
  | reset
  deriving DecidableEq, Repr

/-- A buffer (R30): its listed elements, in rising index order, and the draw its unlisted elements belong to.
An element that is not listed holds no specified value; it reads as `Config.freeByte gen i` (log 2). -/
structure Buffer where
  cells : List Host.Cell
  gen   : Nat
  deriving DecidableEq, Repr

/-- Everything the spec gives the machine (R10, R14, R17, R30), and the model's own fields. -/
structure State where
  /-- The build's parameters (R5); no step writes them. -/
  config  : Config
  /-- `OP`: 0 = ENCODE, 1 = DECODE. -/
  op      : BitVec 1
  /-- `IN_LEN`: how many elements of IBUF are the input. -/
  inLen   : Nat
  /-- `PHASE`. -/
  phase   : Phase
  /-- `STATUS`. -/
  status  : Status
  /-- `OUT_LEN`: how many elements of OBUF are the result. -/
  outLen  : Nat
  /-- `ERR_IDX`; not written, and absent for the host, when ERR_INFO = none. -/
  errIdx  : Nat
  /-- `ERR_CHAR`; not written, and absent for the host, when ERR_INFO = none. -/
  errChar : Byte
  /-- The word of the current group. -/
  value   : Word
  /-- The four bytes of the current group, `b[0]` most significant. -/
  b       : Vector Byte 4
  /-- The five character codes of the current group. -/
  c       : Vector Byte 5
  /-- The five digits of the current group, `d[0]` most significant. -/
  d       : Vector Digit 5
  /-- The index of the current group (R15). -/
  gi      : Nat
  /-- The number of padding elements of the last group, 0 to 4. -/
  pad     : Fin 5
  /-- The number of groups of the operation. -/
  ng      : Nat
  /-- `IBUF`, which the core never writes (R33). -/
  ibuf    : Buffer
  /-- `OBUF`, which the core never reads (R33). -/
  obuf    : Buffer
  /-- DONE has been signalled for the last operation since START or reset (R156). Log 4. -/
  done    : Bool
  /-- Model's own: how many characters of the current group of DECODE are looked up. Log 8. -/
  slot    : Fin 6
  /-- Model's own: the next draw of unspecified values. Log 2. -/
  fresh   : Nat
  /-- The host's coming moves, the next one first. Log 5. -/
  host    : List HostMove
  deriving DecidableEq, Repr

/-- Why the machine stops. -/
inductive Fault where
  /-- Raised by a host write of IBUF at an index that names no element (R30: the capacity is MAX_LEN).
  Safe: nothing is claimed of such a write. -/
  | noSuchElement (i : Nat)
  deriving DecidableEq, Repr

/-- What the model gives no meaning to. -/
inductive Refusal where
  /-- Raised by the arm of an instruction that has no meaning yet; no arm raises it now. Safe. -/
  | notModelled (mnemonic : String)
  /-- Raised by ENCODE and DECODE when START is signalled in BUSY, which R157 has a model refuse. Safe. -/
  | startWhileBusy
  /-- Raised by ENCODE and DECODE when IN_LEN is above MAX_LEN, which R37 has a model refuse. Safe. -/
  | lengthOverMax (n : Nat)
  /-- Raised by a host write of OP, IN_LEN or IBUF in BUSY: no such host move (R158). Safe. -/
  | hostWriteWhileBusy
  /-- Raised by a host write to IN_LEN of a value its LEN_BITS bits cannot hold (R17): no host can make
  such a write. Safe. -/
  | lengthTooWide (n : Nat)
  deriving DecidableEq, Repr

/-- The build shown at reset: the values 92_eei_decisions.md recommends for the OPEN parameters, operations
collapsed (R5). DESIGN CHOICE, log 6 and log 7; no statement rests on it. -/
def resetConfig : Config where
  maxLen  := none
  lenBits := none
  ovfMode := .wrap
  errInfo := .indexAndChar
  pace    := .collapsed

/-- Right after reset (R19, R150): IDLE, no DONE signalled, no element of a buffer specified. R19 calls the
other registers unspecified; the values here are DESIGN CHOICE, log 1. -/
def State.reset : State where
  config  := resetConfig
  op      := 0
  inLen   := 0
  phase   := .idle
  status  := .ok
  outLen  := 0
  errIdx  := 0
  errChar := 0
  value   := 0
  b       := #v[0, 0, 0, 0]
  c       := #v[0, 0, 0, 0, 0]
  d       := #v[0, 0, 0, 0, 0]
  gi      := 0
  pad     := 0
  ng      := 0
  ibuf    := ⟨[], 0⟩
  obuf    := ⟨[], 1⟩
  done    := false
  slot    := 0
  fresh   := 2
  host    := []

end Sys2Proof.Machine
end

