-- ==== Sys2Proof/WellFormed.lean ====
section
/-! DEFINITION. Which instructions, commands and builds are well-formed. -/

namespace Sys2Proof

/-- No row of the table has an operand, so each instruction is well-formed as it stands (R50, R60). -/
def Instr.wf : Instr → Bool
  | _ => true

/-- A length the build accepts: `0 .. MAX_LEN` (R17, R37, R55). -/
def lengthAllowed (maxLen : Option Nat) (n : Nat) : Bool :=
  match maxLen with
  | none => true
  | some m => decide (n ≤ m)

/-- A build is well-formed when `LEN_BITS` is enough bits for `ceil(5 * MAX_LEN / 4)`, the least such width or any
wider one (R5, D4); for an infinite MAX_LEN no width is enough, and the length registers have no bound. -/
def Config.wf (cfg : Config) : Bool :=
  match cfg.maxLen, cfg.lenBits with
  | none, none => true
  | none, some _ => false
  | some _, none => false
  | some m, some w => decide ((5 * m + 3) / 4 < 2 ^ w)

/-- A command is well-formed when its length is in range; both values of OP are legal (R55). -/
def Cmd.wf (cfg : Config) (cmd : Cmd) : Bool :=
  lengthAllowed cfg.maxLen cmd.inLen

end Sys2Proof
end

