-- ==== Sys2Proof/Machine/Operands.lean ====
section
/-! DEFINITION. MAP's two tables and look-ups, and the combinational primitives of ENC and DEC (R58): each a
pure function named after the primitive it is. -/

namespace Sys2Proof.Machine

/-! ### MAP -/

/-- Entries 0 to 16 of FWD (R11). -/
def fwdTable0 : List Byte :=
  [0x30, 0x31, 0x32, 0x33, 0x34, 0x35, 0x36, 0x37, 0x38, 0x39, 0x61, 0x62, 0x63, 0x64, 0x65, 0x66, 0x67]

/-- Entries 17 to 33 of FWD (R11). -/
def fwdTable1 : List Byte :=
  [0x68, 0x69, 0x6A, 0x6B, 0x6C, 0x6D, 0x6E, 0x6F, 0x70, 0x71, 0x72, 0x73, 0x74, 0x75, 0x76, 0x77, 0x78]

/-- Entries 34 to 50 of FWD (R11). -/
def fwdTable2 : List Byte :=
  [0x79, 0x7A, 0x41, 0x42, 0x43, 0x44, 0x45, 0x46, 0x47, 0x48, 0x49, 0x4A, 0x4B, 0x4C, 0x4D, 0x4E, 0x4F]

/-- Entries 51 to 67 of FWD (R11). -/
def fwdTable3 : List Byte :=
  [0x50, 0x51, 0x52, 0x53, 0x54, 0x55, 0x56, 0x57, 0x58, 0x59, 0x5A, 0x2E, 0x2D, 0x3A, 0x2B, 0x3D, 0x5E]

/-- Entries 68 to 84 of FWD (R11). -/
def fwdTable4 : List Byte :=
  [0x21, 0x2F, 0x2A, 0x3F, 0x26, 0x3C, 0x3E, 0x28, 0x29, 0x5B, 0x5D, 0x7B, 0x7D, 0x40, 0x25, 0x24, 0x23]

/-- `FWD`: the 85 character codes, index = digit (R11). -/
def fwdTable : List Byte := fwdTable0 ++ fwdTable1 ++ fwdTable2 ++ fwdTable3 ++ fwdTable4

/-- FWD has an entry for every digit (R11). -/
theorem fwdTable_length : fwdTable.length = 85 := by decide

/-- `MAP.FWD(i)`: digit to character (R70). -/
def fwd (i : Digit) : Byte :=
  fwdTable[i.val]'(Nat.lt_of_lt_of_eq i.isLt fwdTable_length.symm)

/-- Entries 0 to 30 of REVTAB, for the codes 0x21 to 0x3F (R12). -/
def revTab0 : List (BitVec 7) :=
  [68, 0x7F, 84, 83, 82, 72, 0x7F, 75, 76, 70, 65, 0x7F, 63, 62, 69, 0,
   1, 2, 3, 4, 5, 6, 7, 8, 9, 64, 0x7F, 73, 66, 74, 71]

/-- Entries 31 to 61 of REVTAB, for the codes 0x40 to 0x5E (R12). -/
def revTab1 : List (BitVec 7) :=
  [81, 36, 37, 38, 39, 40, 41, 42, 43, 44, 45, 46, 47, 48, 49, 50,
   51, 52, 53, 54, 55, 56, 57, 58, 59, 60, 61, 77, 0x7F, 78, 67]

/-- Entries 62 to 92 of REVTAB, for the codes 0x5F to 0x7D (R12). -/
def revTab2 : List (BitVec 7) :=
  [0x7F, 0x7F, 10, 11, 12, 13, 14, 15, 16, 17, 18, 19, 20, 21, 22, 23,
   24, 25, 26, 27, 28, 29, 30, 31, 32, 33, 34, 35, 79, 0x7F, 80]

/-- `REVTAB`: 93 entries of 7 bits, entry `j` for code `0x21 + j`; 0x7F is the sentinel (R12). -/
def revTab : List (BitVec 7) := revTab0 ++ revTab1 ++ revTab2

/-- What a table entry stands for: the sentinel 0x7F is INVALID, any other entry is a digit (R12, R71). -/
def revEntry (e : BitVec 7) : Option Digit :=
  if h : e.toNat < 85 then some ⟨e.toNat, h⟩ else none

/-- `MAP.REV(x)`: character to digit, `none` for INVALID: the range check, then the table (R71). -/
def rev (x : Byte) : Option Digit :=
  if x.toNat < 0x21 ∨ 0x7D < x.toNat then none
  else (revTab[x.toNat - 0x21]?).bind revEntry

/-! ### ENC -/

/-- `ENC.PAD(N)`: the padding count (R81). -/
def encPad (n : Nat) : Fin 5 :=
  Fin.ofNat 5 (if n % 4 = 0 then 0 else 4 - n % 4)

/-- The number of groups of an ENCODE (R81). -/
def encGroupCount (n : Nat) : Nat :=
  (n + (encPad n).val) / 4

/-- `ENC.PACK(b0, b1, b2, b3)`: four bytes to a word, big-endian (R83, R51), the sum written by Horner's rule so
that no definition multiplies by a large numeral. -/
def encPack (b : Vector Byte 4) : Word :=
  BitVec.ofNat 32 (((b[0].toNat * 256 + b[1].toNat) * 256 + b[2].toNat) * 256 + b[3].toNat)

/-- `ENC.DIGITS(value)`: a word to five base-85 digits, most significant first (R84, R52). -/
def encDigits (value : Word) : Vector Digit 5 :=
  let v := value.toNat
  #v[Fin.ofNat 85 (v / 52200625), Fin.ofNat 85 (v / 614125), Fin.ofNat 85 (v / 7225), Fin.ofNat 85 (v / 85),
     Fin.ofNat 85 v]

/-- `ENC.GROUP`: digits to characters (R85). -/
def encChars (d : Vector Digit 5) : Vector Byte 5 :=
  #v[fwd d[0], fwd d[1], fwd d[2], fwd d[3], fwd d[4]]

/-- `ENC.TRUNC`: the result length, the filler characters dropped (R87). -/
def encTrunc (ng : Nat) (pad : Fin 5) : Nat :=
  5 * ng - pad.val

/-! ### DEC -/

/-- `DEC.LENCHK(L)`: whether the length is the malformed one (R102). -/
def decLengthBad (l : Nat) : Bool :=
  decide (l % 5 = 1)

/-- `DEC.PAD(L)`: the padding count; 4 only for a malformed length (R101). -/
def decPad (l : Nat) : Fin 5 :=
  Fin.ofNat 5 (if l % 5 = 0 then 0 else 5 - l % 5)

/-- The number of groups of a DECODE (R101). -/
def decGroupCount (l : Nat) : Nat :=
  (l + (decPad l).val) / 5

/-- The character that completes the last group of a text: `#`, whose digit is 84 (R56, R103). -/
def padChar : Byte := 0x23

/-- The first character of a text that is no symbol, with its index, the text starting at index `i`: the
validation pass of R100, lowest index first. -/
def firstInvalid : List Byte → Nat → Option (Nat × Byte)
  | [], _ => none
  | x :: rest, i =>
    match rev x with
    | none => some (i, x)
    | some _ => firstInvalid rest (i + 1)

/-- `DEC.ACC(d0, .., d4)`: the exact integer of five digits, by Horner's rule (R105, R52). -/
def decAcc (d : Vector Digit 5) : Nat :=
  (((d[0].val * 85 + d[1].val) * 85 + d[2].val) * 85 + d[3].val) * 85 + d[4].val

/-- `DEC.NARROW(a, g)`: the integer in 32 bits; `none` where ValueOverflow is raised (R106). -/
def decNarrow (mode : OvfMode) (a : Nat) : Option Word :=
  if a < 4294967296 then some (BitVec.ofNat 32 a)
  else
    match mode with
    | .wrap => some (BitVec.ofNat 32 (a % 4294967296))
    | .fault => none

/-- `DEC.UNPACK(value)`: a word to four bytes, big-endian (R107, R51). -/
def decUnpack (value : Word) : Vector Byte 4 :=
  let v := value.toNat
  #v[BitVec.ofNat 8 (v / 16777216 % 256), BitVec.ofNat 8 (v / 65536 % 256), BitVec.ofNat 8 (v / 256 % 256),
     BitVec.ofNat 8 (v % 256)]

/-- `DEC.TRUNC`: the result length, the synthetic bytes dropped (R110). -/
def decTrunc (ng : Nat) (pad : Fin 5) : Nat :=
  4 * ng - pad.val

/-! ### Lengths -/

/-- Whether a value fits a register of LEN_BITS bits (R5, R17). -/
def fitsLen (lenBits : Option Nat) (n : Nat) : Bool :=
  match lenBits with
  | none => true
  | some w => decide (n < 2 ^ w)

/-- A value cut to LEN_BITS bits. -/
def cutLen (lenBits : Option Nat) (n : Nat) : Nat :=
  match lenBits with
  | none => n
  | some w => n % 2 ^ w

end Sys2Proof.Machine
end

