-- ==== Sys2Proof/Machine/Flags.lean ====
section
/-! DEFINITION. There are no condition codes (R16). The only result an operation reports beside its output is
the result code and, with `ERR_INFO = index_and_char`, the two diagnostic registers. -/

namespace Sys2Proof.Machine

/-- The number of a result code (R17, R130). -/
def statusCode : Status → BitVec 2
  | .ok => 0
  | .invalidCharacter => 1
  | .malformedLength => 2
  | .valueOverflow => 3

/-- The result code of an error (R130). -/
def errStatus : Err → Status
  | .invalidCharacter _ _ => .invalidCharacter
  | .malformedLength _ => .malformedLength
  | .valueOverflow _ => .valueOverflow

/-- `ERR_IDX` after an operation that ended with the error `e?` (`none`: success): the index an error names
(R131, R133), else unspecified (R17); untouched when the register is absent. -/
def errIdxAfter (cfg : Config) (now draw : Nat) (e? : Option Err) : Nat :=
  match cfg.errInfo with
  | .noInfo => now
  | .indexAndChar =>
    match e? with
    | some (.invalidCharacter i _) => i
    | some (.valueOverflow i) => i
    | some (.malformedLength _) => cutLen cfg.lenBits (Config.freeIndex draw)
    | none => cutLen cfg.lenBits (Config.freeIndex draw)

/-- `ERR_CHAR` after an operation that ended with the error `e?` (`none`: success): the character of
InvalidCharacter (R131), else unspecified (R17); untouched when the register is absent. -/
def errCharAfter (cfg : Config) (now : Byte) (draw : Nat) (e? : Option Err) : Byte :=
  match cfg.errInfo with
  | .noInfo => now
  | .indexAndChar =>
    match e? with
    | some (.invalidCharacter _ x) => x
    | some (.valueOverflow _) => Config.freeChar draw
    | some (.malformedLength _) => Config.freeChar draw
    | none => Config.freeChar draw

end Sys2Proof.Machine
end

