-- ==== Sys2Proof/Machine/Ops.lean ====
section
/-! DEFINITION. The named operations over the buffers and the registers, START, DONE, and raising an error. -/

namespace Sys2Proof.Machine

/-! ### Buffers -/

/-- The value listed for index `i`, if any. -/
def lookupCell : List Host.Cell → Nat → Option Byte
  | [], _ => none
  | (j, v) :: rest, i => if j = i then some v else lookupCell rest i

/-- List the value `v` for index `i`, keeping the indices rising. -/
def insertCell (i : Nat) (v : Byte) : List Host.Cell → List Host.Cell
  | [] => [(i, v)]
  | (j, w) :: rest =>
    if i < j then (i, v) :: (j, w) :: rest
    else if i = j then (i, v) :: rest
    else (j, w) :: insertCell i v rest

/-- `MemRead(buffer:i, 1)` (R31): the element last written, else a free value. -/
def Buffer.read (m : Buffer) (i : Nat) : Byte :=
  match lookupCell m.cells i with
  | some v => v
  | none => Config.freeByte m.gen i

/-- `MemWrite(buffer:i, 1, v)` (R32). -/
def Buffer.write (m : Buffer) (i : Nat) (v : Byte) : Buffer :=
  { m with cells := insertCell i v m.cells }

/-- Write consecutive elements from index `i` on, one element each. -/
def Buffer.writeSeq (m : Buffer) (i : Nat) : List Byte → Buffer
  | [] => m
  | v :: rest => (m.write i v).writeSeq (i + 1) rest

/-- Elements at `n` and above lose their specified values (R32); the unspecified elements belong to `draw`. -/
def Buffer.truncate (m : Buffer) (n draw : Nat) : Buffer :=
  ⟨m.cells.filter (fun cell => decide (cell.1 < n)), draw⟩

/-- A buffer with no specified element, its elements belonging to `draw`. -/
def Buffer.unspecified (draw : Nat) : Buffer := ⟨[], draw⟩

/-- The canonical form: the listed indices rise strictly. An unlisted element has no specified value, so no
listed element can repeat it. -/
abbrev Buffer.wf (m : Buffer) : Prop := (m.cells.map Prod.fst).Pairwise (· < ·)

/-- The first `n` elements of a buffer, as a sequence (R34 (a)). -/
def Buffer.take (m : Buffer) (n : Nat) : List Byte :=
  (List.range n).map m.read

/-- The operation's input: `IBUF[0 .. IN_LEN-1]` (R80, R100). -/
def inputSeq (s : State) : List Byte := s.ibuf.take s.inLen

/-- The operation's result: `OBUF[0 .. OUT_LEN-1]` (R32). -/
def outputSeq (s : State) : List Byte := s.obuf.take s.outLen

/-! ### Registers -/

/-- Write `pad` and `ng`. -/
def State.setSizes (s : State) (pad : Fin 5) (ng : Nat) : State := { s with pad := pad, ng := ng }

/-- `gi <- 0` (R15). -/
def State.firstGroup (s : State) : State := { s with gi := 0 }

/-- `gi <- gi + 1` (R15); no character of the next group is looked up yet. -/
def State.nextGroup (s : State) : State := { s with gi := s.gi + 1, slot := 0 }

/-- Write `b[0..3]`. -/
def State.setBytes (s : State) (b : Vector Byte 4) : State := { s with b := b }

/-- Write `value`. -/
def State.setValue (s : State) (v : Word) : State := { s with value := v }

/-- Write `d[0..4]`. -/
def State.setDigits (s : State) (d : Vector Digit 5) : State := { s with d := d }

/-- Write `c[0..4]`. -/
def State.setChars (s : State) (c : Vector Byte 5) : State := { s with c := c }

/-- Write consecutive elements of OBUF from index `i` on. -/
def State.storeObuf (s : State) (i : Nat) (xs : List Byte) : State :=
  { s with obuf := s.obuf.writeSeq i xs }

/-- The place in the group of the character taken next. -/
def takePlace (s : State) : Fin 5 := Fin.ofNat 5 s.slot.val

/-- Take one character of the current group of DECODE: `c[k] <- x`, `d[k] <- dg` (R103, R104). After the fifth
character of a group the next one taken is character 0. -/
def takeSymbol (x : Byte) (dg : Digit) (s : State) : State :=
  let k := takePlace s
  { s with c := s.c.set k.val x, d := s.d.set k.val dg, slot := k.succ }

/-! ### START -/

/-- The host's START, once taken, is no longer among its coming moves. -/
def dropStart : List HostMove → List HostMove
  | .start :: rest => rest
  | moves => moves

/-- What START does for either command (R154): BUSY, DONE of the last operation gone, nothing in OBUF kept
(DESIGN CHOICE, log 2: R156 promises it only until START). -/
def State.begin (s : State) : State :=
  { s with
    host := dropStart s.host
    phase := .busy
    done := false
    obuf := .unspecified s.fresh
    fresh := s.fresh + 1
    slot := 0 }

/-- The conditions of START: IDLE (R157) and `IN_LEN <= MAX_LEN` (R37); else the model refuses it. -/
def acceptStart (s : State) (run : State → State) : Host.Outcome State Fault Refusal :=
  if s.phase = .busy then .refused .startWhileBusy
  else if lengthAllowed s.config.maxLen s.inLen then .next (run s)
  else .refused (.lengthOverMax s.inLen)

/-- Repeat `body` at most `n` times, as long as the operation goes on. -/
def whileBusy (body : State → State) : Nat → State → State
  | 0, s => s
  | n + 1, s => if s.phase = .busy then whileBusy body n (body s) else s

/-- `last s` if the operation still goes on. -/
def ifBusy (last : State → State) (s : State) : State :=
  if s.phase = .busy then last s else s

/-! ### Ending an operation -/

/-- DONE after success (R156): the result registers are written, PHASE is IDLE, DONE is signalled, and OBUF at
`OUT_LEN` and above is unspecified (R32). -/
def signalDone (n : Nat) (s : State) : State :=
  { s with
    status := .ok
    outLen := n
    errIdx := errIdxAfter s.config s.errIdx s.fresh none
    errChar := errCharAfter s.config s.errChar s.fresh none
    obuf := s.obuf.truncate n s.fresh
    phase := .idle
    done := true
    fresh := s.fresh + 1 }

/-- `raise e` (R134): the operation ends with the error, all of OBUF is unspecified, DONE is signalled. Control
goes nowhere, nothing is saved, and there is no return: the core is ready for the next START (R136). -/
def raiseError (e : Err) (s : State) : State :=
  { s with
    status := errStatus e
    outLen := 0
    errIdx := errIdxAfter s.config s.errIdx s.fresh (some e)
    errChar := errCharAfter s.config s.errChar s.fresh (some e)
    obuf := .unspecified s.fresh
    phase := .idle
    done := true
    fresh := s.fresh + 1 }

/-- The reset event (R150): every piece of state as after reset, the build unchanged, an operation in progress
abandoned with no DONE, and both buffers unspecified. -/
def resetEvent (s : State) : State :=
  { State.reset with
    config := s.config
    host := s.host
    ibuf := .unspecified s.fresh
    obuf := .unspecified (s.fresh + 1)
    fresh := s.fresh + 2 }

end Sys2Proof.Machine
end

