-- ==== Sys2Proof/Machine/Decoder.lean ====
section
/-! DEFINITION. DEC: the hardware steps of DECODE (R100 to R110). -/

namespace Sys2Proof.Machine

/-- START with OP = 1 (R154, R100): the length check, `pad` and `ng`, the validation of every character, lowest
index first, and `gi <- 0`; either check may end the operation at once. -/
def decStart (s : State) : State :=
  let s := s.begin
  if decLengthBad s.inLen then raiseError (.malformedLength s.inLen) s
  else
    let s := s.setSizes (decPad s.inLen) (decGroupCount s.inLen)
    match firstInvalid (inputSeq s) 0 with
    | some (i, x) => raiseError (.invalidCharacter i x) s
    | none => s.firstGroup

/-- The index in the text of the character to be looked up next. -/
def charIndex (s : State) : Nat := 5 * s.gi + s.slot.val

/-- `DEC.LOAD`: the character to be looked up next; past the end `#`, and IBUF is not read (R103). -/
def decLoad (s : State) : Byte :=
  if charIndex s < s.inLen then s.ibuf.read (charIndex s) else padChar

/-- `DEC.LOAD` and `DEC.UNMAP` of one character (R103, R104). -/
def decLookup (s : State) : State :=
  match rev (decLoad s) with
  | some dg => takeSymbol (decLoad s) dg s
  | none => raiseError (.invalidCharacter (charIndex s) (decLoad s)) s

/-- The arithmetic of a group whose five characters are looked up: accumulate, narrow, unpack, store,
`gi <- gi + 1` (R105 to R109). The synthetic bytes of a partial last group are stored too: DESIGN CHOICE, log 17. -/
def decArith (s : State) : State :=
  match decNarrow s.config.ovfMode (decAcc s.d) with
  | none => raiseError (.valueOverflow (5 * s.gi)) s
  | some v =>
    let s := s.setValue v
    let s := s.setBytes (decUnpack s.value)
    let s := s.storeObuf (4 * s.gi) s.b.toList
    s.nextGroup

/-- One group step (R155, R108): five look-ups, then the arithmetic. -/
def decGroup (s : State) : State :=
  ifBusy decArith (whileBusy decLookup 5 s)

/-- DONE of DECODE (R110, R156). -/
def decDone (s : State) : State := signalDone (decTrunc s.ng s.pad) s

/-- The whole operation, START to DONE, as one transition (R155). -/
def decRun (s : State) : State :=
  let s := decStart s
  ifBusy decDone (whileBusy decGroup s.ng s)

/-- `DECODE` (R100). The host's START begins it (R154); with PACE stepwise this is START alone and the look-ups,
the arithmetic of each group and DONE follow as steps of their own (R155, R156). -/
def execDecode (s : State) : Host.Outcome State Fault Refusal :=
  acceptStart s (fun s =>
    match s.config.pace with
    | .collapsed => decRun s
    | .stepwise => decStart s)

end Sys2Proof.Machine
end

