-- ==== Sys2Proof/Machine/Encoder.lean ====
section
/-! DEFINITION. ENC: the hardware steps of ENCODE (R80 to R87). -/

namespace Sys2Proof.Machine

/-- `ENC.LOAD`: byte `k` of the current group; past the end 0, and IBUF is not read (R82). -/
def encLoad (s : State) (k : Nat) : Byte :=
  if 4 * s.gi + k < s.inLen then s.ibuf.read (4 * s.gi + k) else 0

/-- START with OP = 0 (R154, R80): `pad`, `ng`, `gi <- 0`. -/
def encStart (s : State) : State :=
  (s.begin.setSizes (encPad s.inLen) (encGroupCount s.inLen)).firstGroup

/-- `b[0..3]` of the current group (R82). -/
def encFetch (s : State) : State := s.setBytes #v[encLoad s 0, encLoad s 1, encLoad s 2, encLoad s 3]

/-- One group step (R155): load, pack, digits, characters, store, `gi <- gi + 1` (R82 to R86).
The filler characters of a partial last group are written too: DESIGN CHOICE, log 17. -/
def encGroup (s : State) : State :=
  let s := encFetch s
  let s := s.setValue (encPack s.b)
  let s := s.setDigits (encDigits s.value)
  let s := s.setChars (encChars s.d)
  let s := s.storeObuf (5 * s.gi) s.c.toList
  s.nextGroup

/-- DONE of ENCODE (R87, R156). -/
def encDone (s : State) : State := signalDone (encTrunc s.ng s.pad) s

/-- The whole operation, START to DONE, as one transition (R155). -/
def encRun (s : State) : State :=
  let s := encStart s
  ifBusy encDone (whileBusy encGroup s.ng s)

/-- `ENCODE` (R80). The host's START begins it (R154); with PACE stepwise this is START alone and the group
steps and DONE follow as steps of their own (R155, R156). -/
def execEncode (s : State) : Host.Outcome State Fault Refusal :=
  acceptStart s (fun s =>
    match s.config.pace with
    | .collapsed => encRun s
    | .stepwise => encStart s)

end Sys2Proof.Machine
end

