-- ==== Sys2Proof/Machine/Symbols.lean ====
section
/-! DEFINITION. The 85 symbols. A symbol is taken by the decoder as character `k` of the current group: DEC.LOAD
leaves its code in `c[k]` (R103), DEC.UNMAP its digit in `d[k]` (R104). Each names its own code and digit (R11). -/

namespace Sys2Proof.Machine

/-- `SYM.0` (R11): code 0x30, digit 0. -/
def execSym0 (s : State) : Host.Outcome State Fault Refusal :=
  .next (takeSymbol 0x30 0 s)

/-- `SYM.1` (R11): code 0x31, digit 1. -/
def execSym1 (s : State) : Host.Outcome State Fault Refusal :=
  .next (takeSymbol 0x31 1 s)

/-- `SYM.2` (R11): code 0x32, digit 2. -/
def execSym2 (s : State) : Host.Outcome State Fault Refusal :=
  .next (takeSymbol 0x32 2 s)

/-- `SYM.3` (R11): code 0x33, digit 3. -/
def execSym3 (s : State) : Host.Outcome State Fault Refusal :=
  .next (takeSymbol 0x33 3 s)

/-- `SYM.4` (R11): code 0x34, digit 4. -/
def execSym4 (s : State) : Host.Outcome State Fault Refusal :=
  .next (takeSymbol 0x34 4 s)

/-- `SYM.5` (R11): code 0x35, digit 5. -/
def execSym5 (s : State) : Host.Outcome State Fault Refusal :=
  .next (takeSymbol 0x35 5 s)

/-- `SYM.6` (R11): code 0x36, digit 6. -/
def execSym6 (s : State) : Host.Outcome State Fault Refusal :=
  .next (takeSymbol 0x36 6 s)

/-- `SYM.7` (R11): code 0x37, digit 7. -/
def execSym7 (s : State) : Host.Outcome State Fault Refusal :=
  .next (takeSymbol 0x37 7 s)

/-- `SYM.8` (R11): code 0x38, digit 8. -/
def execSym8 (s : State) : Host.Outcome State Fault Refusal :=
  .next (takeSymbol 0x38 8 s)

/-- `SYM.9` (R11): code 0x39, digit 9. -/
def execSym9 (s : State) : Host.Outcome State Fault Refusal :=
  .next (takeSymbol 0x39 9 s)

/-- `SYM.10` (R11): code 0x61, digit 10. -/
def execSym10 (s : State) : Host.Outcome State Fault Refusal :=
  .next (takeSymbol 0x61 10 s)

/-- `SYM.11` (R11): code 0x62, digit 11. -/
def execSym11 (s : State) : Host.Outcome State Fault Refusal :=
  .next (takeSymbol 0x62 11 s)

/-- `SYM.12` (R11): code 0x63, digit 12. -/
def execSym12 (s : State) : Host.Outcome State Fault Refusal :=
  .next (takeSymbol 0x63 12 s)

/-- `SYM.13` (R11): code 0x64, digit 13. -/
def execSym13 (s : State) : Host.Outcome State Fault Refusal :=
  .next (takeSymbol 0x64 13 s)

/-- `SYM.14` (R11): code 0x65, digit 14. -/
def execSym14 (s : State) : Host.Outcome State Fault Refusal :=
  .next (takeSymbol 0x65 14 s)

/-- `SYM.15` (R11): code 0x66, digit 15. -/
def execSym15 (s : State) : Host.Outcome State Fault Refusal :=
  .next (takeSymbol 0x66 15 s)

/-- `SYM.16` (R11): code 0x67, digit 16. -/
def execSym16 (s : State) : Host.Outcome State Fault Refusal :=
  .next (takeSymbol 0x67 16 s)

/-- `SYM.17` (R11): code 0x68, digit 17. -/
def execSym17 (s : State) : Host.Outcome State Fault Refusal :=
  .next (takeSymbol 0x68 17 s)

/-- `SYM.18` (R11): code 0x69, digit 18. -/
def execSym18 (s : State) : Host.Outcome State Fault Refusal :=
  .next (takeSymbol 0x69 18 s)

/-- `SYM.19` (R11): code 0x6A, digit 19. -/
def execSym19 (s : State) : Host.Outcome State Fault Refusal :=
  .next (takeSymbol 0x6A 19 s)

/-- `SYM.20` (R11): code 0x6B, digit 20. -/
def execSym20 (s : State) : Host.Outcome State Fault Refusal :=
  .next (takeSymbol 0x6B 20 s)

/-- `SYM.21` (R11): code 0x6C, digit 21. -/
def execSym21 (s : State) : Host.Outcome State Fault Refusal :=
  .next (takeSymbol 0x6C 21 s)

/-- `SYM.22` (R11): code 0x6D, digit 22. -/
def execSym22 (s : State) : Host.Outcome State Fault Refusal :=
  .next (takeSymbol 0x6D 22 s)

/-- `SYM.23` (R11): code 0x6E, digit 23. -/
def execSym23 (s : State) : Host.Outcome State Fault Refusal :=
  .next (takeSymbol 0x6E 23 s)

/-- `SYM.24` (R11): code 0x6F, digit 24. -/
def execSym24 (s : State) : Host.Outcome State Fault Refusal :=
  .next (takeSymbol 0x6F 24 s)

/-- `SYM.25` (R11): code 0x70, digit 25. -/
def execSym25 (s : State) : Host.Outcome State Fault Refusal :=
  .next (takeSymbol 0x70 25 s)

/-- `SYM.26` (R11): code 0x71, digit 26. -/
def execSym26 (s : State) : Host.Outcome State Fault Refusal :=
  .next (takeSymbol 0x71 26 s)

/-- `SYM.27` (R11): code 0x72, digit 27. -/
def execSym27 (s : State) : Host.Outcome State Fault Refusal :=
  .next (takeSymbol 0x72 27 s)

/-- `SYM.28` (R11): code 0x73, digit 28. -/
def execSym28 (s : State) : Host.Outcome State Fault Refusal :=
  .next (takeSymbol 0x73 28 s)

/-- `SYM.29` (R11): code 0x74, digit 29. -/
def execSym29 (s : State) : Host.Outcome State Fault Refusal :=
  .next (takeSymbol 0x74 29 s)

/-- `SYM.30` (R11): code 0x75, digit 30. -/
def execSym30 (s : State) : Host.Outcome State Fault Refusal :=
  .next (takeSymbol 0x75 30 s)

/-- `SYM.31` (R11): code 0x76, digit 31. -/
def execSym31 (s : State) : Host.Outcome State Fault Refusal :=
  .next (takeSymbol 0x76 31 s)

/-- `SYM.32` (R11): code 0x77, digit 32. -/
def execSym32 (s : State) : Host.Outcome State Fault Refusal :=
  .next (takeSymbol 0x77 32 s)

/-- `SYM.33` (R11): code 0x78, digit 33. -/
def execSym33 (s : State) : Host.Outcome State Fault Refusal :=
  .next (takeSymbol 0x78 33 s)

/-- `SYM.34` (R11): code 0x79, digit 34. -/
def execSym34 (s : State) : Host.Outcome State Fault Refusal :=
  .next (takeSymbol 0x79 34 s)

/-- `SYM.35` (R11): code 0x7A, digit 35. -/
def execSym35 (s : State) : Host.Outcome State Fault Refusal :=
  .next (takeSymbol 0x7A 35 s)

/-- `SYM.36` (R11): code 0x41, digit 36. -/
def execSym36 (s : State) : Host.Outcome State Fault Refusal :=
  .next (takeSymbol 0x41 36 s)

/-- `SYM.37` (R11): code 0x42, digit 37. -/
def execSym37 (s : State) : Host.Outcome State Fault Refusal :=
  .next (takeSymbol 0x42 37 s)

/-- `SYM.38` (R11): code 0x43, digit 38. -/
def execSym38 (s : State) : Host.Outcome State Fault Refusal :=
  .next (takeSymbol 0x43 38 s)

/-- `SYM.39` (R11): code 0x44, digit 39. -/
def execSym39 (s : State) : Host.Outcome State Fault Refusal :=
  .next (takeSymbol 0x44 39 s)

/-- `SYM.40` (R11): code 0x45, digit 40. -/
def execSym40 (s : State) : Host.Outcome State Fault Refusal :=
  .next (takeSymbol 0x45 40 s)

/-- `SYM.41` (R11): code 0x46, digit 41. -/
def execSym41 (s : State) : Host.Outcome State Fault Refusal :=
  .next (takeSymbol 0x46 41 s)

/-- `SYM.42` (R11): code 0x47, digit 42. -/
def execSym42 (s : State) : Host.Outcome State Fault Refusal :=
  .next (takeSymbol 0x47 42 s)

/-- `SYM.43` (R11): code 0x48, digit 43. -/
def execSym43 (s : State) : Host.Outcome State Fault Refusal :=
  .next (takeSymbol 0x48 43 s)

/-- `SYM.44` (R11): code 0x49, digit 44. -/
def execSym44 (s : State) : Host.Outcome State Fault Refusal :=
  .next (takeSymbol 0x49 44 s)

/-- `SYM.45` (R11): code 0x4A, digit 45. -/
def execSym45 (s : State) : Host.Outcome State Fault Refusal :=
  .next (takeSymbol 0x4A 45 s)

/-- `SYM.46` (R11): code 0x4B, digit 46. -/
def execSym46 (s : State) : Host.Outcome State Fault Refusal :=
  .next (takeSymbol 0x4B 46 s)

/-- `SYM.47` (R11): code 0x4C, digit 47. -/
def execSym47 (s : State) : Host.Outcome State Fault Refusal :=
  .next (takeSymbol 0x4C 47 s)

/-- `SYM.48` (R11): code 0x4D, digit 48. -/
def execSym48 (s : State) : Host.Outcome State Fault Refusal :=
  .next (takeSymbol 0x4D 48 s)

/-- `SYM.49` (R11): code 0x4E, digit 49. -/
def execSym49 (s : State) : Host.Outcome State Fault Refusal :=
  .next (takeSymbol 0x4E 49 s)

/-- `SYM.50` (R11): code 0x4F, digit 50. -/
def execSym50 (s : State) : Host.Outcome State Fault Refusal :=
  .next (takeSymbol 0x4F 50 s)

/-- `SYM.51` (R11): code 0x50, digit 51. -/
def execSym51 (s : State) : Host.Outcome State Fault Refusal :=
  .next (takeSymbol 0x50 51 s)

/-- `SYM.52` (R11): code 0x51, digit 52. -/
def execSym52 (s : State) : Host.Outcome State Fault Refusal :=
  .next (takeSymbol 0x51 52 s)

/-- `SYM.53` (R11): code 0x52, digit 53. -/
def execSym53 (s : State) : Host.Outcome State Fault Refusal :=
  .next (takeSymbol 0x52 53 s)

/-- `SYM.54` (R11): code 0x53, digit 54. -/
def execSym54 (s : State) : Host.Outcome State Fault Refusal :=
  .next (takeSymbol 0x53 54 s)

/-- `SYM.55` (R11): code 0x54, digit 55. -/
def execSym55 (s : State) : Host.Outcome State Fault Refusal :=
  .next (takeSymbol 0x54 55 s)

/-- `SYM.56` (R11): code 0x55, digit 56. -/
def execSym56 (s : State) : Host.Outcome State Fault Refusal :=
  .next (takeSymbol 0x55 56 s)

/-- `SYM.57` (R11): code 0x56, digit 57. -/
def execSym57 (s : State) : Host.Outcome State Fault Refusal :=
  .next (takeSymbol 0x56 57 s)

/-- `SYM.58` (R11): code 0x57, digit 58. -/
def execSym58 (s : State) : Host.Outcome State Fault Refusal :=
  .next (takeSymbol 0x57 58 s)

/-- `SYM.59` (R11): code 0x58, digit 59. -/
def execSym59 (s : State) : Host.Outcome State Fault Refusal :=
  .next (takeSymbol 0x58 59 s)

/-- `SYM.60` (R11): code 0x59, digit 60. -/
def execSym60 (s : State) : Host.Outcome State Fault Refusal :=
  .next (takeSymbol 0x59 60 s)

/-- `SYM.61` (R11): code 0x5A, digit 61. -/
def execSym61 (s : State) : Host.Outcome State Fault Refusal :=
  .next (takeSymbol 0x5A 61 s)

/-- `SYM.62` (R11): code 0x2E, digit 62. -/
def execSym62 (s : State) : Host.Outcome State Fault Refusal :=
  .next (takeSymbol 0x2E 62 s)

/-- `SYM.63` (R11): code 0x2D, digit 63. -/
def execSym63 (s : State) : Host.Outcome State Fault Refusal :=
  .next (takeSymbol 0x2D 63 s)

/-- `SYM.64` (R11): code 0x3A, digit 64. -/
def execSym64 (s : State) : Host.Outcome State Fault Refusal :=
  .next (takeSymbol 0x3A 64 s)

/-- `SYM.65` (R11): code 0x2B, digit 65. -/
def execSym65 (s : State) : Host.Outcome State Fault Refusal :=
  .next (takeSymbol 0x2B 65 s)

/-- `SYM.66` (R11): code 0x3D, digit 66. -/
def execSym66 (s : State) : Host.Outcome State Fault Refusal :=
  .next (takeSymbol 0x3D 66 s)

/-- `SYM.67` (R11): code 0x5E, digit 67. -/
def execSym67 (s : State) : Host.Outcome State Fault Refusal :=
  .next (takeSymbol 0x5E 67 s)

/-- `SYM.68` (R11): code 0x21, digit 68. -/
def execSym68 (s : State) : Host.Outcome State Fault Refusal :=
  .next (takeSymbol 0x21 68 s)

/-- `SYM.69` (R11): code 0x2F, digit 69. -/
def execSym69 (s : State) : Host.Outcome State Fault Refusal :=
  .next (takeSymbol 0x2F 69 s)

/-- `SYM.70` (R11): code 0x2A, digit 70. -/
def execSym70 (s : State) : Host.Outcome State Fault Refusal :=
  .next (takeSymbol 0x2A 70 s)

/-- `SYM.71` (R11): code 0x3F, digit 71. -/
def execSym71 (s : State) : Host.Outcome State Fault Refusal :=
  .next (takeSymbol 0x3F 71 s)

/-- `SYM.72` (R11): code 0x26, digit 72. -/
def execSym72 (s : State) : Host.Outcome State Fault Refusal :=
  .next (takeSymbol 0x26 72 s)

/-- `SYM.73` (R11): code 0x3C, digit 73. -/
def execSym73 (s : State) : Host.Outcome State Fault Refusal :=
  .next (takeSymbol 0x3C 73 s)

/-- `SYM.74` (R11): code 0x3E, digit 74. -/
def execSym74 (s : State) : Host.Outcome State Fault Refusal :=
  .next (takeSymbol 0x3E 74 s)

/-- `SYM.75` (R11): code 0x28, digit 75. -/
def execSym75 (s : State) : Host.Outcome State Fault Refusal :=
  .next (takeSymbol 0x28 75 s)

/-- `SYM.76` (R11): code 0x29, digit 76. -/
def execSym76 (s : State) : Host.Outcome State Fault Refusal :=
  .next (takeSymbol 0x29 76 s)

/-- `SYM.77` (R11): code 0x5B, digit 77. -/
def execSym77 (s : State) : Host.Outcome State Fault Refusal :=
  .next (takeSymbol 0x5B 77 s)

/-- `SYM.78` (R11): code 0x5D, digit 78. -/
def execSym78 (s : State) : Host.Outcome State Fault Refusal :=
  .next (takeSymbol 0x5D 78 s)

/-- `SYM.79` (R11): code 0x7B, digit 79. -/
def execSym79 (s : State) : Host.Outcome State Fault Refusal :=
  .next (takeSymbol 0x7B 79 s)

/-- `SYM.80` (R11): code 0x7D, digit 80. -/
def execSym80 (s : State) : Host.Outcome State Fault Refusal :=
  .next (takeSymbol 0x7D 80 s)

/-- `SYM.81` (R11): code 0x40, digit 81. -/
def execSym81 (s : State) : Host.Outcome State Fault Refusal :=
  .next (takeSymbol 0x40 81 s)

/-- `SYM.82` (R11): code 0x25, digit 82. -/
def execSym82 (s : State) : Host.Outcome State Fault Refusal :=
  .next (takeSymbol 0x25 82 s)

/-- `SYM.83` (R11): code 0x24, digit 83. -/
def execSym83 (s : State) : Host.Outcome State Fault Refusal :=
  .next (takeSymbol 0x24 83 s)

/-- `SYM.84` (R11): code 0x23, digit 84. -/
def execSym84 (s : State) : Host.Outcome State Fault Refusal :=
  .next (takeSymbol 0x23 84 s)

end Sys2Proof.Machine
end

