-- ==== Sys2Proof/Decode.lean ====
section
/-! DEFINITION. Decoding, total on any bytes, rejecting by name, and the encoder. The core reads instructions
in two places: the OP register holds a command (R55), and an element of a text holds a symbol (R53). -/

namespace Sys2Proof

/-- Why bytes are no instruction. -/
inductive DecodeError where
  /-- There is no byte to read. -/
  | noBytes
  /-- An 8-bit code that matches no SYM8 row (R54, R60). -/
  | invalidSymbol (x : Byte)
  deriving DecidableEq, Repr

/-- A SYM8 row of the table: `match` (with `mask` 0xFF) and the instruction. -/
structure SymRow where
  code  : Byte
  instr : Instr
  deriving DecidableEq, Repr

/-- Rows `SYM.0` to `SYM.16` of the table. -/
def symRows0 : List SymRow :=
  [⟨0x30, .sym0⟩, ⟨0x31, .sym1⟩, ⟨0x32, .sym2⟩, ⟨0x33, .sym3⟩, ⟨0x34, .sym4⟩, ⟨0x35, .sym5⟩,
   ⟨0x36, .sym6⟩, ⟨0x37, .sym7⟩, ⟨0x38, .sym8⟩, ⟨0x39, .sym9⟩, ⟨0x61, .sym10⟩, ⟨0x62, .sym11⟩,
   ⟨0x63, .sym12⟩, ⟨0x64, .sym13⟩, ⟨0x65, .sym14⟩, ⟨0x66, .sym15⟩, ⟨0x67, .sym16⟩]

/-- Rows `SYM.17` to `SYM.33` of the table. -/
def symRows1 : List SymRow :=
  [⟨0x68, .sym17⟩, ⟨0x69, .sym18⟩, ⟨0x6A, .sym19⟩, ⟨0x6B, .sym20⟩, ⟨0x6C, .sym21⟩, ⟨0x6D, .sym22⟩,
   ⟨0x6E, .sym23⟩, ⟨0x6F, .sym24⟩, ⟨0x70, .sym25⟩, ⟨0x71, .sym26⟩, ⟨0x72, .sym27⟩, ⟨0x73, .sym28⟩,
   ⟨0x74, .sym29⟩, ⟨0x75, .sym30⟩, ⟨0x76, .sym31⟩, ⟨0x77, .sym32⟩, ⟨0x78, .sym33⟩]

/-- Rows `SYM.34` to `SYM.50` of the table. -/
def symRows2 : List SymRow :=
  [⟨0x79, .sym34⟩, ⟨0x7A, .sym35⟩, ⟨0x41, .sym36⟩, ⟨0x42, .sym37⟩, ⟨0x43, .sym38⟩, ⟨0x44, .sym39⟩,
   ⟨0x45, .sym40⟩, ⟨0x46, .sym41⟩, ⟨0x47, .sym42⟩, ⟨0x48, .sym43⟩, ⟨0x49, .sym44⟩, ⟨0x4A, .sym45⟩,
   ⟨0x4B, .sym46⟩, ⟨0x4C, .sym47⟩, ⟨0x4D, .sym48⟩, ⟨0x4E, .sym49⟩, ⟨0x4F, .sym50⟩]

/-- Rows `SYM.51` to `SYM.67` of the table. -/
def symRows3 : List SymRow :=
  [⟨0x50, .sym51⟩, ⟨0x51, .sym52⟩, ⟨0x52, .sym53⟩, ⟨0x53, .sym54⟩, ⟨0x54, .sym55⟩, ⟨0x55, .sym56⟩,
   ⟨0x56, .sym57⟩, ⟨0x57, .sym58⟩, ⟨0x58, .sym59⟩, ⟨0x59, .sym60⟩, ⟨0x5A, .sym61⟩, ⟨0x2E, .sym62⟩,
   ⟨0x2D, .sym63⟩, ⟨0x3A, .sym64⟩, ⟨0x2B, .sym65⟩, ⟨0x3D, .sym66⟩, ⟨0x5E, .sym67⟩]

/-- Rows `SYM.68` to `SYM.84` of the table. -/
def symRows4 : List SymRow :=
  [⟨0x21, .sym68⟩, ⟨0x2F, .sym69⟩, ⟨0x2A, .sym70⟩, ⟨0x3F, .sym71⟩, ⟨0x26, .sym72⟩, ⟨0x3C, .sym73⟩,
   ⟨0x3E, .sym74⟩, ⟨0x28, .sym75⟩, ⟨0x29, .sym76⟩, ⟨0x5B, .sym77⟩, ⟨0x5D, .sym78⟩, ⟨0x7B, .sym79⟩,
   ⟨0x7D, .sym80⟩, ⟨0x40, .sym81⟩, ⟨0x25, .sym82⟩, ⟨0x24, .sym83⟩, ⟨0x23, .sym84⟩]

/-- The 85 SYM8 rows (R60). -/
def symRows : List SymRow := symRows0 ++ symRows1 ++ symRows2 ++ symRows3 ++ symRows4

/-- The command the 1-bit OP register selects (R55): both values are legal. -/
def decodeCmd (op : BitVec 1) : Instr :=
  if op = 0#1 then .cmdEncode else .cmdDecode

/-- The symbol an 8-bit code stands for; a code that matches no row is invalid (R54, R60). -/
def decodeSym (x : Byte) : Except DecodeError Instr :=
  match symRows.find? (fun r => r.code == x) with
  | some r => .ok r.instr
  | none => .error (.invalidSymbol x)

/-- Whether a byte laid out alone is a command: OP is its bit 0 and the bits above it are zero. No symbol has
such a code (R54), so commands and symbols do not overlap. DESIGN CHOICE, log 11. -/
def isCommandByte (x : Byte) : Bool :=
  decide (x.toNat < 2)

/-- Decode the first instruction of a list of bytes, each instruction being one byte; answers the rest too. -/
def decode : List Byte → Except DecodeError (Instr × List Byte)
  | [] => .error .noBytes
  | x :: rest =>
    if isCommandByte x then .ok (decodeCmd (BitVec.ofNat 1 x.toNat), rest)
    else
      match decodeSym x with
      | .ok i => .ok (i, rest)
      | .error e => .error e

/-- The byte of an instruction: its row's `match`. -/
def encodeByte : Instr → Byte
  | .cmdEncode => 0x00
  | .cmdDecode => 0x01
  | .sym0 => 0x30
  | .sym1 => 0x31
  | .sym2 => 0x32
  | .sym3 => 0x33
  | .sym4 => 0x34
  | .sym5 => 0x35
  | .sym6 => 0x36
  | .sym7 => 0x37
  | .sym8 => 0x38
  | .sym9 => 0x39
  | .sym10 => 0x61
  | .sym11 => 0x62
  | .sym12 => 0x63
  | .sym13 => 0x64
  | .sym14 => 0x65
  | .sym15 => 0x66
  | .sym16 => 0x67
  | .sym17 => 0x68
  | .sym18 => 0x69
  | .sym19 => 0x6A
  | .sym20 => 0x6B
  | .sym21 => 0x6C
  | .sym22 => 0x6D
  | .sym23 => 0x6E
  | .sym24 => 0x6F
  | .sym25 => 0x70
  | .sym26 => 0x71
  | .sym27 => 0x72
  | .sym28 => 0x73
  | .sym29 => 0x74
  | .sym30 => 0x75
  | .sym31 => 0x76
  | .sym32 => 0x77
  | .sym33 => 0x78
  | .sym34 => 0x79
  | .sym35 => 0x7A
  | .sym36 => 0x41
  | .sym37 => 0x42
  | .sym38 => 0x43
  | .sym39 => 0x44
  | .sym40 => 0x45
  | .sym41 => 0x46
  | .sym42 => 0x47
  | .sym43 => 0x48
  | .sym44 => 0x49
  | .sym45 => 0x4A
  | .sym46 => 0x4B
  | .sym47 => 0x4C
  | .sym48 => 0x4D
  | .sym49 => 0x4E
  | .sym50 => 0x4F
  | .sym51 => 0x50
  | .sym52 => 0x51
  | .sym53 => 0x52
  | .sym54 => 0x53
  | .sym55 => 0x54
  | .sym56 => 0x55
  | .sym57 => 0x56
  | .sym58 => 0x57
  | .sym59 => 0x58
  | .sym60 => 0x59
  | .sym61 => 0x5A
  | .sym62 => 0x2E
  | .sym63 => 0x2D
  | .sym64 => 0x3A
  | .sym65 => 0x2B
  | .sym66 => 0x3D
  | .sym67 => 0x5E
  | .sym68 => 0x21
  | .sym69 => 0x2F
  | .sym70 => 0x2A
  | .sym71 => 0x3F
  | .sym72 => 0x26
  | .sym73 => 0x3C
  | .sym74 => 0x3E
  | .sym75 => 0x28
  | .sym76 => 0x29
  | .sym77 => 0x5B
  | .sym78 => 0x5D
  | .sym79 => 0x7B
  | .sym80 => 0x7D
  | .sym81 => 0x40
  | .sym82 => 0x25
  | .sym83 => 0x24
  | .sym84 => 0x23

/-- The words of an instruction: one byte. -/
def encode (i : Instr) : List Byte := [encodeByte i]

/-- The bytes of an instruction whose bits are `w`, first byte first; at least the one byte an instruction has. -/
def tableBytes (nbits w : Nat) : List Byte :=
  (List.range (max 1 ((nbits + 7) / 8))).map (fun k => BitVec.ofNat 8 (w / 256 ^ k))

/-- What the decoder reads from the table word `w` of `nbits` bits. -/
def decodeTableWord (nbits w : Nat) : Option Instr :=
  match decode (tableBytes nbits w) with
  | .ok (i, _) => some i
  | .error _ => none

end Sys2Proof
end

