-- ==== Sys2Proof/Machine/Fetch.lean ====
section
/-! DEFINITION. Where the machine finds its next instruction: the command in OP when the host signals START
(R55, R154), a symbol of the text while a group of DECODE is looked up (R53, R103). -/

namespace Sys2Proof.Machine

/-- The command START runs. -/
def fetchCmd (s : State) : Instr := decodeCmd s.op

/-- The symbol the decoder takes next, or the code that is none. -/
def fetchSym (s : State) : Except DecodeError Instr := decodeSym (decLoad s)

/-- `s` with the command in OP and the host's next move START, in IDLE. -/
def placeCmd (s : State) (op : BitVec 1) : State :=
  { s with op := op, phase := .idle, host := .start :: s.host }

/-- `s` in the middle of a DECODE of a one-group text whose first character, the next one looked up, is `x`. -/
def placeChar (s : State) (x : Byte) : State :=
  { s with
    op := 1
    inLen := 5
    phase := .busy
    done := false
    gi := 0
    slot := 0
    pad := 0
    ng := 1
    ibuf := s.ibuf.write 0 x
    host := [] }

/-- `s` with the table word `w` of `nbits` bits where the next step fetches (log 13). -/
def placeWord (s : State) (nbits w : Nat) : State :=
  match tableBytes nbits w with
  | [] => s
  | x :: _ => if isCommandByte x then placeCmd s (BitVec.ofNat 1 x.toNat) else placeChar s x

end Sys2Proof.Machine
end

