-- ==== Sys2Proof/Machine/HostPort.lean ====
section
/-! DEFINITION. The host's side: its writes, which it makes in IDLE only (R158), and its reads: of the results
(R159), which give an unspecified value outside R159, and of the command registers and IBUF (R10, log 19). -/

namespace Sys2Proof.Machine

/-- A host write, made in IDLE (R158); in BUSY the model gives the host no such move. -/
def whenIdle (s : State) (answer : Host.Outcome State Fault Refusal) : Host.Outcome State Fault Refusal :=
  if s.phase = .idle then answer else .refused .hostWriteWhileBusy

/-- Write OP (R17). -/
def hostWriteOp (v : BitVec 1) (s : State) : Host.Outcome State Fault Refusal :=
  whenIdle s (.next { s with op := v })

/-- Write IN_LEN, a register of LEN_BITS bits (R17). A value above MAX_LEN may stand there; START refuses it. -/
def hostWriteLen (n : Nat) (s : State) : Host.Outcome State Fault Refusal :=
  whenIdle s (if fitsLen s.config.lenBits n then .next { s with inLen := n } else .refused (.lengthTooWide n))

/-- Whether IBUF has an element `i`: its capacity is MAX_LEN (R30). -/
def hasElement (maxLen : Option Nat) (i : Nat) : Bool :=
  lengthAllowed maxLen (i + 1)

/-- Write element `i` of IBUF (R30, R31). -/
def hostWriteIbuf (i : Nat) (v : Byte) (s : State) : Host.Outcome State Fault Refusal :=
  whenIdle s
    (if hasElement s.config.maxLen i then .next { s with ibuf := s.ibuf.write i v } else .fault (.noSuchElement i))

/-- What a host read of the command or of IBUF gives: in IDLE what stands there, in BUSY, where both are the
core's (R158), an unspecified value. R10 names the host as a reader, R17 and R30 only the core: DESIGN CHOICE,
log 19. -/
def readIdle {α : Type} (s : State) (held unspecified : α) : α :=
  if s.phase = .idle then held else unspecified

/-- Read OP (R10). DESIGN CHOICE, log 19. -/
def hostReadOp (s : State) : BitVec 1 := readIdle s s.op (Config.readOp s.fresh)

/-- Read IN_LEN (R10). DESIGN CHOICE, log 19. -/
def hostReadLen (s : State) : Nat := readIdle s s.inLen (cutLen s.config.lenBits (Config.readLen s.fresh))

/-- Read element `i` of IBUF (R10, R36). DESIGN CHOICE, log 19. -/
def hostReadIbuf (i : Nat) (s : State) : Byte := readIdle s (s.ibuf.read i) (Config.readInput s.fresh i)

/-- The result registers are valid: IDLE, and an operation has completed since reset (R17, R159). -/
def resultsReadable (s : State) : Bool :=
  decide (s.phase = .idle) && s.done

/-- Read PHASE (R17): 0 = IDLE, 1 = BUSY. -/
def hostReadPhase (s : State) : BitVec 1 :=
  match s.phase with
  | .idle => 0
  | .busy => 1

/-- Read STATUS (R159). -/
def hostReadStatus (s : State) : BitVec 2 :=
  if resultsReadable s then statusCode s.status else Config.readStatus s.fresh

/-- Read OUT_LEN (R159). -/
def hostReadOutLen (s : State) : Nat :=
  if resultsReadable s then s.outLen else cutLen s.config.lenBits (Config.readOutLen s.fresh)

/-- Read element `i` of OBUF: the result below OUT_LEN after success, else unspecified (R159). -/
def hostReadObuf (i : Nat) (s : State) : Byte :=
  if resultsReadable s && decide (s.status = .ok) && decide (i < s.outLen) then s.obuf.read i
  else Config.readElement s.fresh i

/-- Read ERR_IDX: only with ERR_INFO = index_and_char and STATUS 1 or 3, else unspecified (R159). -/
def hostReadErrIdx (s : State) : Nat :=
  if resultsReadable s && decide (s.config.errInfo = .indexAndChar) &&
      (decide (s.status = .invalidCharacter) || decide (s.status = .valueOverflow)) then s.errIdx
  else cutLen s.config.lenBits (Config.readErrIdx s.fresh)

/-- Read ERR_CHAR: only with ERR_INFO = index_and_char and STATUS 1, else unspecified (R159). -/
def hostReadErrChar (s : State) : Byte :=
  if resultsReadable s && decide (s.config.errInfo = .indexAndChar) && decide (s.status = .invalidCharacter) then
    s.errChar
  else Config.readErrChar s.fresh

/-- What the host reads of a result: `OBUF[0 .. OUT_LEN-1]`, each element through a host read (R159). -/
def hostReadResult (s : State) : List Byte :=
  (List.range (hostReadOutLen s)).map (fun i => hostReadObuf i s)

end Sys2Proof.Machine
end

