-- ==== Sys2Proof/Machine/Sequencer.lean ====
section
/-! DEFINITION. Which move comes next: the host's or the core's (R153 to R156). -/

namespace Sys2Proof.Machine

/-- DECODE in BUSY with groups left: look the next character up, or, when all five are looked up, do the
group's arithmetic (R155). A character that is a symbol is the instruction executed. -/
def decBusy (s : State) : Host.Outcome State Fault Refusal :=
  if s.slot = 5 then .next (decArith s)
  else
    match fetchSym s with
    | .ok i => exec i s
    | .error _ => .next (raiseError (.invalidCharacter (charIndex s) (decLoad s)) s)

/-- The core's move in BUSY: the next part of the operation OP names, and DONE when no group is left (R155,
R156). -/
def busyStep (s : State) : Host.Outcome State Fault Refusal :=
  if s.op = 0#1 then
    if s.gi < s.ng then .next (encGroup s) else .next (encDone s)
  else
    if s.gi < s.ng then decBusy s else .next (decDone s)

/-- The move after which the host goes on: the core's in BUSY; in IDLE the core does nothing (R153). -/
def coreMove (s idle : State) : Host.Outcome State Fault Refusal :=
  match s.phase with
  | .busy => busyStep s
  | .idle => .next idle

/-- One step: the host's next move, else the core's. -/
def oneMove (s : State) : Host.Outcome State Fault Refusal :=
  match s.host with
  | [] => coreMove s s
  | .await :: rest => coreMove s { s with host := rest }
  | .start :: _ => exec (fetchCmd s) s
  | .reset :: rest => .next (resetEvent { s with host := rest })
  | .writeOp v :: rest => hostWriteOp v { s with host := rest }
  | .writeLen n :: rest => hostWriteLen n { s with host := rest }
  | .writeIbuf i v :: rest => hostWriteIbuf i v { s with host := rest }

end Sys2Proof.Machine
end

