-- ==== Sys2Proof/Machine/Codec.lean ====
section
/-! DEFINITION. The two commands as functions on sequences, as R80 and R100 write them (R6: the result depends
on nothing else). The hardware's steps are in Encoder.lean and Decoder.lean. -/

namespace Sys2Proof.Machine

/-- `ENC.LOAD(data, N, g, k)` on a sequence: the byte, or 0 past the end (R82). -/
def encLoadSeq (data : List Byte) (g k : Nat) : Byte :=
  match data[4 * g + k]? with
  | some x => x
  | none => 0

/-- The five characters of group `g` (R82 to R85). -/
def encGroupSeq (data : List Byte) (g : Nat) : List Byte :=
  let ld := encLoadSeq data g
  (encChars (encDigits (encPack #v[ld 0, ld 1, ld 2, ld 3]))).toList

/-- `ENCODE(data)` (R80). -/
def encodeSeq (data : List Byte) : List Byte :=
  let ng := encGroupCount data.length
  ((List.range ng).flatMap (encGroupSeq data)).take (encTrunc ng (encPad data.length))

/-- `DEC.LOAD(text, L, g, k)` on a sequence: the character, or `#` past the end (R103). -/
def decLoadSeq (text : List Byte) (g k : Nat) : Byte :=
  match text[5 * g + k]? with
  | some x => x
  | none => padChar

/-- `DEC.UNMAP` of character `k` of group `g` (R104). -/
def decUnmapSeq (text : List Byte) (g k : Nat) : Except Err Digit :=
  match rev (decLoadSeq text g k) with
  | some dg => .ok dg
  | none => .error (.invalidCharacter (5 * g + k) (decLoadSeq text g k))

/-- The five digits of group `g`, or the error of its first invalid character (R104). -/
def decDigitsSeq (text : List Byte) (g : Nat) : Except Err (Vector Digit 5) :=
  match decUnmapSeq text g 0, decUnmapSeq text g 1, decUnmapSeq text g 2, decUnmapSeq text g 3, decUnmapSeq text g 4 with
  | .ok d0, .ok d1, .ok d2, .ok d3, .ok d4 => .ok #v[d0, d1, d2, d3, d4]
  | .error e, _, _, _, _ => .error e
  | _, .error e, _, _, _ => .error e
  | _, _, .error e, _, _ => .error e
  | _, _, _, .error e, _ => .error e
  | _, _, _, _, .error e => .error e

/-- `DEC.GROUP`: the four bytes of group `g`, or an error (R104 to R108). -/
def decGroupSeq (mode : OvfMode) (text : List Byte) (g : Nat) : Except Err (List Byte) :=
  match decDigitsSeq text g with
  | .error e => .error e
  | .ok d =>
    match decNarrow mode (decAcc d) with
    | some v => .ok (decUnpack v).toList
    | none => .error (.valueOverflow (5 * g))

/-- The digit of character `k` of group `g`, 0 where there is none (statements use it for valid texts only). -/
def digitAt (text : List Byte) (g k : Nat) : Digit :=
  match rev (decLoadSeq text g k) with
  | some dg => dg
  | none => 0

/-- The five digits of group `g` of a text of valid characters. -/
def groupDigits (text : List Byte) (g : Nat) : Vector Digit 5 :=
  #v[digitAt text g 0, digitAt text g 1, digitAt text g 2, digitAt text g 3, digitAt text g 4]

/-- The exact integer of group `g` of a text of valid characters (R105), the padded last group included. -/
def groupValue (text : List Byte) (g : Nat) : Nat :=
  decAcc (groupDigits text g)

/-- The groups `g .. g + n - 1` in order; the first error ends the operation (R100). -/
def decGroupsSeq (mode : OvfMode) (text : List Byte) : Nat → Nat → Except Err (List Byte)
  | 0, _ => .ok []
  | n + 1, g =>
    match decGroupSeq mode text g with
    | .error e => .error e
    | .ok bytes =>
      match decGroupsSeq mode text n (g + 1) with
      | .error e => .error e
      | .ok more => .ok (bytes ++ more)

/-- `DECODE(text)`: the length check, the validation pass, the arithmetic pass, in this order (R100, R111). -/
def decodeSeq (mode : OvfMode) (text : List Byte) : Except Err (List Byte) :=
  let l := text.length
  if decLengthBad l then .error (.malformedLength l)
  else
    match firstInvalid text 0 with
    | some (i, x) => .error (.invalidCharacter i x)
    | none =>
      match decGroupsSeq mode text (decGroupCount l) 0 with
      | .ok out => .ok (out.take (decTrunc (decGroupCount l) (decPad l)))
      | .error e => .error e

end Sys2Proof.Machine
end

