-- ==== Sys2Proof/Safety.lean ====
section
/-! DEFINITION. The terms claims are stated in: a core ready for START, a disciplined host, and the invariants. -/

namespace Sys2Proof

open Machine

/-- The core may be started: IDLE, and IN_LEN within MAX_LEN (R154, R157, R37). -/
def Ready (s : State) : Prop :=
  s.phase = .idle ∧ lengthAllowed s.config.maxLen s.inLen = true

/-- The host's next move is one the spec gives it (R154, R157, R158, R17, R30): a safe run makes no other. -/
def Disciplined (s : State) : Prop :=
  match s.host with
  | [] => True
  | .await :: _ => True
  | .reset :: _ => True
  | .start :: _ => Ready s
  | .writeOp _ :: _ => s.phase = .idle
  | .writeLen n :: _ => s.phase = .idle ∧ fitsLen s.config.lenBits n = true
  | .writeIbuf i _ :: _ => s.phase = .idle ∧ hasElement s.config.maxLen i = true

/-- The host makes no move: it has none left, or it waits for DONE (log 5). -/
def LeftAlone (s : State) : Prop :=
  s.host = [] ∨ ∃ rest, s.host = .await :: rest

/-- The same machine shown with another PACE (log 7). -/
def withPace (p : Pace) (s : State) : State :=
  { s with config := { s.config with pace := p } }

/-- The buffers' form: canonical, IBUF inside its capacity (R30), and the unspecified elements of IBUF and OBUF
drawn apart from each other and from every later draw. -/
def MemoryInv (s : State) : Prop :=
  s.ibuf.wf ∧ s.obuf.wf ∧ (∀ cell ∈ s.ibuf.cells, hasElement s.config.maxLen cell.1 = true) ∧
    s.ibuf.gen < s.fresh ∧ s.obuf.gen < s.fresh ∧ s.ibuf.gen ≠ s.obuf.gen

/-- Once an operation has completed, the result registers agree (R17, R133): OUT_LEN is 0 after an error, and code 3
needs `OVF_MODE = fault`. Before, nothing is claimed of them (R19). -/
def ResultInv (s : State) : Prop :=
  s.done = true → (s.status ≠ .ok → s.outLen = 0) ∧ (s.status = .valueOverflow → s.config.ovfMode = .fault)

/-- What holds in the middle of an ENCODE: `pad` and `ng` are those of IN_LEN (R81, R154). -/
def EncodeUnderWay (s : State) : Prop :=
  s.pad = encPad s.inLen ∧ s.ng = encGroupCount s.inLen ∧ s.slot = 0

/-- What holds in the middle of a DECODE: the checks of START have passed (R102, R104), `pad` and `ng` are those
of IN_LEN (R101), and the characters looked up in this group stand in `c`, their digits in `d` (R103, R104). -/
def DecodeUnderWay (s : State) : Prop :=
  s.inLen % 5 ≠ 1 ∧ firstInvalid (inputSeq s) 0 = none ∧
    s.pad = decPad s.inLen ∧ s.ng = decGroupCount s.inLen ∧ (s.slot ≠ 0 → s.gi < s.ng) ∧
    ∀ k : Fin 5, k.val < s.slot.val →
      s.c[k.val] = decLoadSeq (inputSeq s) s.gi k.val ∧ rev s.c[k.val] = some s.d[k.val]

/-- An operation in progress is where its sequencing says (R15, R153 to R156); in BUSY no DONE stands. -/
def SequenceInv (s : State) : Prop :=
  s.phase = .busy →
    s.done = false ∧ lengthAllowed s.config.maxLen s.inLen = true ∧ s.gi ≤ s.ng ∧
      if s.op = 0#1 then EncodeUnderWay s else DecodeUnderWay s

/-- The LEN_BITS registers hold values of LEN_BITS bits (R14, R15, R17): of OUT_LEN, and of ERR_IDX where it is
present, this is claimed once an operation has completed (R19). -/
def WidthInv (s : State) : Prop :=
  fitsLen s.config.lenBits s.inLen = true ∧ fitsLen s.config.lenBits s.gi = true ∧
    fitsLen s.config.lenBits s.ng = true ∧
    (s.done = true → fitsLen s.config.lenBits s.outLen = true ∧
      (s.config.errInfo = .indexAndChar → fitsLen s.config.lenBits s.errIdx = true))

/-- Every listed element of OBUF lies in the room for whole groups of the longest input (R37, R160). -/
def RoomInv (s : State) : Prop :=
  ∀ m, s.config.maxLen = some m → ∀ cell ∈ s.obuf.cells, cell.1 < 5 * encGroupCount m

end Sys2Proof
end

