-- ==== Sys2Proof/Certificates/Slice0/Obligations.lean ====
section
/-! DEFINITION. The statements for the provers. Every statement holds for every value of the build's parameters
(MAX_LEN, LEN_BITS, OVF_MODE, ERR_INFO) and of every free value, unless it names the one it assumes. -/

open Sys2Proof Sys2Proof.Machine

/-! ### MAP and the encodings -/

/-- R72: MAP.REV inverts MAP.FWD on the digits, and MAP.FWD inverts MAP.REV on the valid codes. -/
def Obligations.MapperTablesAreInverse : Prop :=
  (∀ i : Digit, rev (fwd i) = some i) ∧
    (∀ (x : Byte) (i : Digit), rev x = some i → fwd i = x) ∧
    (∀ x : Byte, (¬∃ i, fwd i = x) → rev x = none)

/-- R54, R11: which of the 256 codes are valid, the digits of the three regular runs, and the 23 punctuation symbols
of the digits 62 to 84 in their order. -/
def Obligations.CodesAreClassified : Prop :=
  (∀ x : Byte, (rev x).isSome = true ↔
    (x = 0x21 ∨ (0x23 ≤ x ∧ x ≤ 0x26) ∨ (0x28 ≤ x ∧ x ≤ 0x2B) ∨ (0x2D ≤ x ∧ x ≤ 0x3A) ∨ (0x3C ≤ x ∧ x ≤ 0x5B) ∨
      (0x5D ≤ x ∧ x ≤ 0x5E) ∨ (0x61 ≤ x ∧ x ≤ 0x7B) ∨ x = 0x7D)) ∧
    (∀ i : Digit, (i.val ≤ 9 → (fwd i).toNat = 0x30 + i.val) ∧
      (10 ≤ i.val ∧ i.val ≤ 35 → (fwd i).toNat = 0x61 + (i.val - 10)) ∧
      (36 ≤ i.val ∧ i.val ≤ 61 → (fwd i).toNat = 0x41 + (i.val - 36))) ∧
    (List.range 23).map (fun k => fwd (Fin.ofNat 85 (62 + k))) =
      [0x2E, 0x2D, 0x3A, 0x2B, 0x3D, 0x5E, 0x21, 0x2F, 0x2A, 0x3F, 0x26, 0x3C,
       0x3E, 0x28, 0x29, 0x5B, 0x5D, 0x7B, 0x7D, 0x40, 0x25, 0x24, 0x23]

/-- R60, R55: a few table words, written out from the spec's encoding, decode to their rows. That commands and
symbols share one space of bytes is the model's choice (log 11). -/
def Obligations.TableWordsDecode : Prop :=
  decodeTableWord 8 0x00 = some .cmdEncode ∧ decodeTableWord 8 0x01 = some .cmdDecode ∧
    decodeTableWord 8 0x30 = some .sym0 ∧ decodeTableWord 8 0x61 = some .sym10 ∧
    decodeTableWord 8 0x41 = some .sym36 ∧ decodeTableWord 8 0x2E = some .sym62 ∧
    decodeTableWord 8 0x21 = some .sym68 ∧ decodeTableWord 8 0x7D = some .sym80 ∧
    decodeTableWord 8 0x23 = some .sym84 ∧ decodeTableWord 8 0x20 = none ∧ decodeTableWord 8 0x7E = none

/-- R60: an instruction's byte decodes to it, whatever follows. That commands and symbols share one space of bytes
is the model's choice (log 11). -/
def Obligations.DecodeOfEncodeIsTheInstruction : Prop :=
  ∀ (i : Instr) (rest : List Byte), i.wf = true → decode (encode i ++ rest) = .ok (i, rest)

/-- R60, R54: a code decodes to a symbol exactly when MAP.REV finds a digit in it, the row's digit, and then it is
that symbol's code; any other code is refused by name. -/
def Obligations.SymbolDecodingAgreesWithMapper : Prop :=
  ∀ x : Byte,
    match decodeSym x with
    | .ok i => rev x = i.digit? ∧ (i.digit?).isSome = true ∧ encodeByte i = x
    | .error e => rev x = none ∧ e = .invalidSymbol x

/-! ### The primitives -/

/-- R81: the padding count and the number of groups of ENCODE. -/
def Obligations.EncodePaddingCount : Prop :=
  ∀ n : Nat, (encPad n).val = (4 - n % 4) % 4 ∧ 4 * encGroupCount n = n + (encPad n).val ∧
    encGroupCount n = (n + 3) / 4

/-- R101: the padding count and the number of groups of DECODE. -/
def Obligations.DecodePaddingCount : Prop :=
  ∀ l : Nat, (decPad l).val = (if l % 5 = 0 then 0 else 5 - l % 5) ∧
    5 * decGroupCount l = l + (decPad l).val ∧ decGroupCount l = (l + 4) / 5 ∧ ((decPad l).val = 4 ↔ l % 5 = 1)

/-- R83: ENC.PACK is the big-endian sum, which always fits 32 bits. -/
def Obligations.PackIsBigEndian : Prop :=
  ∀ b : Vector Byte 4,
    (encPack b).toNat = b[0].toNat * 256 ^ 3 + b[1].toNat * 256 ^ 2 + b[2].toNat * 256 + b[3].toNat

/-- R84, R90: the five digits of a word by successive division; they give the word back, so different words give
different quintets, and 85^5 > 256^4 > 85^4. -/
def Obligations.DigitsAreLossless : Prop :=
  (∀ v : Word, (encDigits v)[0].val = v.toNat / 85 ^ 4 % 85 ∧ (encDigits v)[1].val = v.toNat / 85 ^ 3 % 85 ∧
      (encDigits v)[2].val = v.toNat / 85 ^ 2 % 85 ∧ (encDigits v)[3].val = v.toNat / 85 % 85 ∧
      (encDigits v)[4].val = v.toNat % 85) ∧
    (∀ v : Word, decAcc (encDigits v) = v.toNat) ∧
    (∀ v w : Word, encDigits v = encDigits w → v = w) ∧ 85 ^ 5 > 256 ^ 4 ∧ 256 ^ 4 > 85 ^ 4

/-- R105: DEC.ACC is the exact sum, the same by Horner's rule, at most 85^5 - 1. -/
def Obligations.AccumulateIsExact : Prop :=
  ∀ d : Vector Digit 5,
    decAcc d = d[0].val * 85 ^ 4 + d[1].val * 85 ^ 3 + d[2].val * 85 ^ 2 + d[3].val * 85 + d[4].val ∧
      decAcc d = (((d[0].val * 85 + d[1].val) * 85 + d[2].val) * 85 + d[3].val) * 85 + d[4].val ∧
      decAcc d ≤ 85 ^ 5 - 1

/-- R106: DEC.NARROW keeps a value below 2^32; above, it subtracts 2^32 (wrap) or gives none (fault). -/
def Obligations.NarrowWrapsOrFaults : Prop :=
  ∀ a : Nat, a ≤ 85 ^ 5 - 1 →
    (a < 2 ^ 32 → ∀ m, decNarrow m a = some (BitVec.ofNat 32 a) ∧ (BitVec.ofNat 32 a).toNat = a) ∧
      (2 ^ 32 ≤ a → decNarrow .fault a = none ∧ ∃ v, decNarrow .wrap a = some v ∧ v.toNat = a - 2 ^ 32)

/-- R107: DEC.UNPACK takes the bytes by division, and is the inverse of ENC.PACK on all words and all groups of
bytes. -/
def Obligations.UnpackInvertsPack : Prop :=
  (∀ v : Word, (decUnpack v)[0].toNat = v.toNat / 256 ^ 3 % 256 ∧ (decUnpack v)[1].toNat = v.toNat / 256 ^ 2 % 256 ∧
      (decUnpack v)[2].toNat = v.toNat / 256 % 256 ∧ (decUnpack v)[3].toNat = v.toNat % 256) ∧
    (∀ b : Vector Byte 4, decUnpack (encPack b) = b) ∧ (∀ v : Word, encPack (decUnpack v) = v)

/-- R108: DEC.GROUP of ENC.GROUP gives the four bytes back with no error, under both values of OVF_MODE. -/
def Obligations.GroupRoundTrip : Prop :=
  ∀ (m : OvfMode) (b : Vector Byte 4),
    decGroupSeq m (encChars (encDigits (encPack b))).toList 0 = .ok b.toList

/-! ### The two functions on sequences -/

/-- R88: the three forms of the length of an encoding agree with it, the division of the first form is exact, and
the length is never 1 modulo 5. -/
def Obligations.EncodeLengthLaw : Prop :=
  ∀ data : List Byte,
    let n := data.length
    let pad := (encPad n).val
    (encodeSeq data).length = (n + pad) * 5 / 4 - pad ∧
      (encodeSeq data).length = 5 * ((n + 3) / 4) - pad ∧
      (encodeSeq data).length = (5 * n + 3) / 4 ∧ (n + pad) % 4 = 0 ∧ (encodeSeq data).length % 5 ≠ 1

/-- R114: the length of a successful decoding. -/
def Obligations.DecodeLengthLaw : Prop :=
  ∀ (m : OvfMode) (text out : List Byte), decodeSeq m text = .ok out →
    let l := text.length
    let pad := (decPad l).val
    l % 5 ≠ 1 ∧ out.length = (l + pad) * 4 / 5 - pad ∧ out.length = 4 * ((l + 4) / 5) - pad ∧
      out.length = l - (l + 4) / 5

/-- R89: every character of an encoding is one of the 85 symbols. -/
def Obligations.EncodingStaysInAlphabet : Prop :=
  ∀ (data : List Byte) (x : Byte), x ∈ encodeSeq data → ∃ dg : Digit, x = fwd dg

/-- R91: a prefix of whole groups is encoded independently of what follows. -/
def Obligations.EncodeConcatenates : Prop :=
  ∀ x y : List Byte, x.length % 4 = 0 → encodeSeq (x ++ y) = encodeSeq x ++ encodeSeq y

/-- R115: a prefix of whole quintets is decoded independently of what follows. -/
def Obligations.DecodeConcatenates : Prop :=
  ∀ (m : OvfMode) (s t out all : List Byte), s.length % 5 = 0 →
    decodeSeq m s = .ok out → decodeSeq m (s ++ t) = .ok all →
    ∃ more, decodeSeq m t = .ok more ∧ all = out ++ more

/-- R111: which error DECODE reports when several apply, and when it succeeds. -/
def Obligations.DecodeErrorOrder : Prop :=
  ∀ (m : OvfMode) (text : List Byte),
    let l := text.length
    let valid := ∀ x ∈ text, (rev x).isSome = true
    (l % 5 = 1 → decodeSeq m text = .error (.malformedLength l)) ∧
      (l % 5 ≠ 1 → ∀ (i : Nat) (h : i < l), rev text[i] = none → (∀ j (hj : j < i), (rev text[j]).isSome = true) →
        decodeSeq m text = .error (.invalidCharacter i text[i])) ∧
      (l % 5 ≠ 1 → valid → m = .fault → ∀ g, g < decGroupCount l → 2 ^ 32 ≤ groupValue text g →
        (∀ h, h < g → groupValue text h < 2 ^ 32) → decodeSeq m text = .error (.valueOverflow (5 * g))) ∧
      (l % 5 ≠ 1 → valid → (m = .wrap ∨ ∀ g, g < decGroupCount l → groupValue text g < 2 ^ 32) →
        ∃ out, decodeSeq m text = .ok out)

/-- R92: decoding an encoding gives the bytes back, under both values of OVF_MODE, with no error. -/
def Obligations.DecodeInvertsEncode : Prop :=
  ∀ (m : OvfMode) (data : List Byte), decodeSeq m (encodeSeq data) = .ok data

/-- R113: a text of whole quintets, none of which overflows, is the encoding of what it decodes to. -/
def Obligations.WholeTextsAreCanonical : Prop :=
  ∀ text out : List Byte, text.length % 5 = 0 → decodeSeq .fault text = .ok out → encodeSeq out = text

/-! ### The commands on the machine -/

/-- R80: ENCODE, from START to DONE: the result is the encoding of the input, `OUT_LEN = 5*ng - pad`, `STATUS = 0`.
The operation as one transition is PACE collapsed, the model's choice (R155; log 7). -/
def Obligations.EncodeCommandCompletes : Prop :=
  ∀ s : State, Ready s → s.config.pace = .collapsed →
    ∃ t, exec .cmdEncode s = .next t ∧ t.status = .ok ∧ t.phase = .idle ∧ t.done = true ∧
      outputSeq t = encodeSeq (inputSeq s) ∧ t.outLen = 5 * encGroupCount s.inLen - (encPad s.inLen).val ∧
      t.outLen = (encodeSeq (inputSeq s)).length ∧ t.gi = t.ng ∧ t.ng = encGroupCount s.inLen ∧
      t.pad = encPad s.inLen ∧ inputSeq t = inputSeq s

/-- R100: DECODE, from START to DONE: the result is the decoding of the input, or its error with `OUT_LEN = 0`. PACE
collapsed is the model's choice (log 7). -/
def Obligations.DecodeCommandCompletes : Prop :=
  ∀ s : State, Ready s → s.config.pace = .collapsed →
    ∃ t, exec .cmdDecode s = .next t ∧ t.phase = .idle ∧ t.done = true ∧ inputSeq t = inputSeq s ∧
      match decodeSeq s.config.ovfMode (inputSeq s) with
      | .ok out => t.status = .ok ∧ outputSeq t = out ∧ t.outLen = out.length ∧
          t.outLen = 4 * decGroupCount s.inLen - (decPad s.inLen).val
      | .error e => t.status = errStatus e ∧ t.outLen = 0

/-- R100, R114: a text of legal length and valid symbols is decoded with `STATUS = 0` where OVF_MODE is wrap. PACE
collapsed is the model's choice (log 7). -/
def Obligations.DecodeOfLegalTextSucceeds : Prop :=
  ∀ s : State, Ready s → s.config.pace = .collapsed → s.config.ovfMode = .wrap → s.inLen % 5 ≠ 1 →
    (∀ i, i < s.inLen → (rev (s.ibuf.read i)).isSome = true) →
    ∃ t, exec .cmdDecode s = .next t ∧ t.status = .ok ∧ t.phase = .idle ∧ t.done = true ∧
      t.outLen = s.inLen - (s.inLen + 4) / 5 ∧ decodeSeq .wrap (inputSeq s) = .ok (outputSeq t)

/-- R102, R132: a DECODE of length 1 modulo 5 ends at once with MalformedLength, whatever its characters are. -/
def Obligations.MalformedLengthIsReported : Prop :=
  ∀ s : State, Ready s → s.inLen % 5 = 1 →
    ∃ t, exec .cmdDecode s = .next t ∧ t.status = .malformedLength ∧ t.outLen = 0 ∧ t.phase = .idle ∧
      t.done = true ∧ t.obuf.cells = [] ∧ t.ibuf = s.ibuf ∧ t.op = s.op ∧ t.inLen = s.inLen

/-- R131: a text of legal length with an invalid character ends with InvalidCharacter; with ERR_INFO =
index_and_char the lowest such index and its character are recorded, with ERR_INFO = none nothing is. -/
def Obligations.InvalidCharacterIsReported : Prop :=
  ∀ (s : State) (i : Nat), Ready s → s.inLen % 5 ≠ 1 → i < s.inLen → rev (s.ibuf.read i) = none →
    (∀ j, j < i → (rev (s.ibuf.read j)).isSome = true) →
    ∃ t, exec .cmdDecode s = .next t ∧ t.status = .invalidCharacter ∧ t.outLen = 0 ∧ t.phase = .idle ∧
      t.done = true ∧ t.obuf.cells = [] ∧
      (s.config.errInfo = .indexAndChar → t.errIdx = i ∧ t.errChar = s.ibuf.read i) ∧
      (s.config.errInfo = .noInfo → t.errIdx = s.errIdx ∧ t.errChar = s.errChar)

/-- R133: with OVF_MODE = fault, a text of legal length and valid characters with a group of 2^32 or more ends with
ValueOverflow, the lowest such group reported. PACE collapsed is the model's choice (log 7). -/
def Obligations.ValueOverflowIsReported : Prop :=
  ∀ (s : State) (g : Nat), Ready s → s.config.pace = .collapsed → s.config.ovfMode = .fault → s.inLen % 5 ≠ 1 →
    (∀ j, j < s.inLen → (rev (s.ibuf.read j)).isSome = true) → g < decGroupCount s.inLen →
    2 ^ 32 ≤ groupValue (inputSeq s) g → (∀ h, h < g → groupValue (inputSeq s) h < 2 ^ 32) →
    ∃ t, exec .cmdDecode s = .next t ∧ t.status = .valueOverflow ∧ t.outLen = 0 ∧ t.phase = .idle ∧
      t.done = true ∧ t.obuf.cells = [] ∧ (s.config.errInfo = .indexAndChar → t.errIdx = 5 * g) ∧
      (s.config.errInfo = .noInfo → t.errIdx = s.errIdx)

/-- R154: with the group steps shown one by one (PACE stepwise, the model's choice, log 7), START of ENCODE makes
the core BUSY with `pad`, `ng` and `gi` set; of the spec's registers and IBUF nothing else changes. That OBUF loses
its specified values at START already, to a draw of `fresh`, is the model's choice (log 2, log 18): R156 keeps them
only until START and R158 lets no host read them before the next DONE. `slot` is the model's own (log 8), and the
host's moves are a list by the model's choice (log 5). -/
def Obligations.EncodeStartStepwise : Prop :=
  ∀ s : State, Ready s → s.config.pace = .stepwise →
    exec .cmdEncode s = .next
      { s with
        host := dropStart s.host
        phase := .busy
        done := false
        pad := encPad s.inLen
        ng := encGroupCount s.inLen
        gi := 0
        slot := 0
        obuf := .unspecified s.fresh
        fresh := s.fresh + 1 }

/-- R154: the same of DECODE, where the length check and the validation pass. PACE stepwise is the model's choice
(log 7). That OBUF loses its specified values at START already, to a draw of `fresh`, is the model's choice (log 2,
log 18): R156 keeps them only until START and R158 lets no host read them before the next DONE. `slot` is the
model's own (log 8), and the host's moves are a list by the model's choice (log 5). -/
def Obligations.DecodeStartStepwise : Prop :=
  ∀ s : State, Ready s → s.config.pace = .stepwise → s.inLen % 5 ≠ 1 →
    (∀ i, i < s.inLen → (rev (s.ibuf.read i)).isSome = true) →
    exec .cmdDecode s = .next
      { s with
        host := dropStart s.host
        phase := .busy
        done := false
        pad := decPad s.inLen
        ng := decGroupCount s.inLen
        gi := 0
        slot := 0
        obuf := .unspecified s.fresh
        fresh := s.fresh + 1 }

/-- The frame of the commands (R33, R134 (d)): OP, IN_LEN, the parameters and every element of IBUF are unchanged;
when the operation has ended, no element of OBUF at OUT_LEN or above holds a specified value (R32). -/
def Obligations.CommandFrame : Prop :=
  ∀ (i : Instr) (s t : State), i = .cmdEncode ∨ i = .cmdDecode → exec i s = .next t →
    t.config = s.config ∧ t.op = s.op ∧ t.inLen = s.inLen ∧ t.host = dropStart s.host ∧
      (∀ a, t.ibuf.read a = s.ibuf.read a) ∧
      (s.config.errInfo = .noInfo → t.errIdx = s.errIdx ∧ t.errChar = s.errChar) ∧
      (t.phase = .idle → ∀ a, t.outLen ≤ a → lookupCell t.obuf.cells a = none) ∧
      (t.phase = .busy → t.status = s.status ∧ t.outLen = s.outLen ∧ t.errIdx = s.errIdx ∧
        t.errChar = s.errChar ∧ t.value = s.value ∧ t.b = s.b ∧ t.c = s.c ∧ t.d = s.d)

/-- R157: START in BUSY is refused; neither queued, nor ignored, nor a restart. -/
def Obligations.StartInBusyIsRefused : Prop :=
  ∀ s : State, s.phase = .busy →
    exec .cmdEncode s = .refused .startWhileBusy ∧ exec .cmdDecode s = .refused .startWhileBusy

/-- R37: START with IN_LEN above MAX_LEN is refused. -/
def Obligations.LengthOverMaxIsRefused : Prop :=
  ∀ (s : State) (m : Nat), s.phase = .idle → s.config.maxLen = some m → m < s.inLen →
    exec .cmdEncode s = .refused (.lengthOverMax s.inLen) ∧ exec .cmdDecode s = .refused (.lengthOverMax s.inLen)

/-- R6, R39 (a): the result of a command depends on the build and on `IBUF[0 .. IN_LEN-1]` alone. PACE collapsed is
the model's choice (log 7). -/
def Obligations.ResultDependsOnInputAlone : Prop :=
  ∀ (i : Instr) (s₁ s₂ t₁ t₂ : State), i = .cmdEncode ∨ i = .cmdDecode →
    s₁.config.pace = .collapsed → s₁.config = s₂.config → inputSeq s₁ = inputSeq s₂ →
    exec i s₁ = .next t₁ → exec i s₂ = .next t₂ →
    t₁.status = t₂.status ∧ t₁.outLen = t₂.outLen ∧ outputSeq t₁ = outputSeq t₂ ∧
      (s₁.config.errInfo = .indexAndChar →
        (t₁.status = .invalidCharacter → t₁.errIdx = t₂.errIdx ∧ t₁.errChar = t₂.errChar) ∧
          (t₁.status = .valueOverflow → t₁.errIdx = t₂.errIdx))

/-- R92 on the machine: DECODE of what an ENCODE left succeeds and leaves the bytes ENCODE was given. PACE collapsed
is the model's choice (log 7). -/
def Obligations.CommandsRoundTrip : Prop :=
  ∀ s t u : State, Ready s → s.config.pace = .collapsed → exec .cmdEncode s = .next t →
    Ready u → u.config.pace = .collapsed → inputSeq u = outputSeq t →
    ∃ w, exec .cmdDecode u = .next w ∧ w.status = .ok ∧ outputSeq w = inputSeq s

/-! ### The symbols -/

/-- R103, R104, R11: a symbol taken by the decoder leaves its code in `c[k]` and its digit in `d[k]`, `k` being the
place of the character in its group, and changes nothing else but the model's own `slot` (log 8). -/
def Obligations.SymbolIsTaken : Prop :=
  ∀ (i : Instr) (dg : Digit) (s : State), i.digit? = some dg →
    exec i s = .next
      { s with
        c := s.c.set (takePlace s).val (fwd dg)
        d := s.d.set (takePlace s).val dg
        slot := (takePlace s).succ }

/-- The frame of a symbol (R103, R104, R14): no other character or digit of the group, no other register, no element
of IBUF or OBUF changes. One symbol taken by itself, at the place the model's own `slot` names, is the model's choice
(log 8): the spec's unit is the group (R155). `fresh` (log 18) and the list of the host's moves (log 5) are the
model's own too. -/
def Obligations.SymbolFrame : Prop :=
  ∀ (i : Instr) (dg : Digit) (s t : State), i.digit? = some dg → exec i s = .next t →
    (∀ k : Fin 5, k ≠ takePlace s → t.c[k.val] = s.c[k.val] ∧ t.d[k.val] = s.d[k.val]) ∧
      t.config = s.config ∧ t.op = s.op ∧ t.inLen = s.inLen ∧ t.phase = s.phase ∧ t.status = s.status ∧
      t.outLen = s.outLen ∧ t.errIdx = s.errIdx ∧ t.errChar = s.errChar ∧ t.value = s.value ∧ t.b = s.b ∧
      t.gi = s.gi ∧ t.pad = s.pad ∧ t.ng = s.ng ∧ t.done = s.done ∧ t.fresh = s.fresh ∧ t.host = s.host ∧
      (∀ a, t.ibuf.read a = s.ibuf.read a) ∧ (∀ a, t.obuf.read a = s.obuf.read a)

/-! ### Steps -/

/-- A step runs the fetched instruction: the command OP selects when the host signals START, and the symbol the
decoder takes next while a group of DECODE is looked up (R154, R155). The look-up of one character as a step of its
own, and `slot`, are the model's choice (log 8), as is the list of the host's moves (log 5). -/
def Obligations.StepRunsTheInstruction : Prop :=
  (∀ (s : State) (rest : List HostMove), s.host = .start :: rest → step s = exec (decodeCmd s.op) s) ∧
    (∀ (s : State) (i : Instr), s.host = [] → s.phase = .busy → s.op = 1#1 → s.gi < s.ng → s.slot ≠ 5 →
      decodeSym (decLoad s) = .ok i → step s = exec i s) ∧
    (∀ (s : State) (i : Instr) (rest : List HostMove), s.host = .await :: rest → s.phase = .busy → s.op = 1#1 →
      s.gi < s.ng → s.slot ≠ 5 → decodeSym (decLoad s) = .ok i → step s = exec i s)

/-- R80, R155: one group step of ENCODE, with no host move or the host waiting. The five characters of the four bytes
loaded stand at `OBUF[5*gi ..]`, every other element of OBUF and all of IBUF read as before. That the filler
characters of a partial last group stand there too until DONE is the model's choice (log 17): R86 leaves open whether
they are written. `slot` and `fresh` are the model's own (log 8, log 18), and the host's moves are a list by the
model's choice (log 5). -/
def Obligations.EncodeGroupStep : Prop :=
  ∀ s : State, LeftAlone s → s.phase = .busy → s.op = 0#1 → s.gi < s.ng →
    ∃ t, step s = .next t ∧ t.gi = s.gi + 1 ∧ t.b = #v[encLoad s 0, encLoad s 1, encLoad s 2, encLoad s 3] ∧
      t.value = encPack t.b ∧ t.d = encDigits t.value ∧ t.c = encChars t.d ∧
      (∀ k : Fin 5, t.obuf.read (5 * s.gi + k.val) = t.c[k.val]) ∧
      (∀ a, a < 5 * s.gi ∨ 5 * s.gi + 5 ≤ a → t.obuf.read a = s.obuf.read a) ∧ t.ibuf = s.ibuf ∧
      t.phase = .busy ∧ t.done = s.done ∧ t.pad = s.pad ∧ t.ng = s.ng ∧ t.op = s.op ∧ t.inLen = s.inLen ∧
      t.config = s.config ∧ t.status = s.status ∧ t.outLen = s.outLen ∧ t.errIdx = s.errIdx ∧
      t.errChar = s.errChar ∧ t.slot = 0 ∧ t.fresh = s.fresh ∧ t.host = s.host

/-- R105 to R109, R155: the arithmetic of a group of DECODE whose characters are looked up, with no host move or the
host waiting. With the group below 2^32, or OVF_MODE = wrap, its four bytes stand at `OBUF[4*gi ..]`; else
ValueOverflow(5*gi) is raised. That the synthetic bytes of a partial last group stand there too until DONE is the
model's choice (log 17): R109 leaves open whether they are written. `slot` and `fresh` are the model's own (log 8,
log 18), and the host's moves are a list by the model's choice (log 5). -/
def Obligations.DecodeArithmeticStep : Prop :=
  ∀ s : State, LeftAlone s → s.phase = .busy → s.op = 1#1 → s.gi < s.ng → s.slot = 5 →
    ∃ t, step s = .next t ∧ t.ibuf = s.ibuf ∧ t.op = s.op ∧ t.inLen = s.inLen ∧ t.config = s.config ∧
      t.c = s.c ∧ t.d = s.d ∧ t.pad = s.pad ∧ t.ng = s.ng ∧ t.host = s.host ∧
      (decAcc s.d < 2 ^ 32 ∨ s.config.ovfMode = .wrap →
        t.value.toNat = decAcc s.d % 2 ^ 32 ∧ t.b = decUnpack t.value ∧ t.gi = s.gi + 1 ∧ t.slot = 0 ∧
          (∀ k : Fin 4, t.obuf.read (4 * s.gi + k.val) = t.b[k.val]) ∧
          (∀ a, a < 4 * s.gi ∨ 4 * s.gi + 4 ≤ a → t.obuf.read a = s.obuf.read a) ∧
          t.phase = .busy ∧ t.done = s.done ∧ t.status = s.status ∧ t.outLen = s.outLen ∧ t.errIdx = s.errIdx ∧
          t.errChar = s.errChar ∧ t.fresh = s.fresh) ∧
      (2 ^ 32 ≤ decAcc s.d ∧ s.config.ovfMode = .fault →
        t.status = .valueOverflow ∧ t.outLen = 0 ∧ t.phase = .idle ∧ t.done = true ∧ t.obuf.cells = [] ∧
          t.value = s.value ∧ t.b = s.b ∧ t.gi = s.gi ∧ (s.config.errInfo = .indexAndChar → t.errIdx = 5 * s.gi) ∧
          (s.config.errInfo = .noInfo → t.errIdx = s.errIdx ∧ t.errChar = s.errChar))

/-- R156: when no group is left, with no host move or the host waiting, DONE: the result registers are written, PHASE
is IDLE, and OBUF below OUT_LEN keeps what the group steps wrote. The host's moves are a list by the model's choice
(log 5). -/
def Obligations.DoneStep : Prop :=
  ∀ s : State, LeftAlone s → s.phase = .busy → s.gi = s.ng →
    ∃ t, step s = .next t ∧ t.phase = .idle ∧ t.done = true ∧ t.status = .ok ∧
      t.outLen = (if s.op = 0#1 then 5 * s.ng - s.pad.val else 4 * s.ng - s.pad.val) ∧
      (∀ a, a < t.outLen → lookupCell t.obuf.cells a = lookupCell s.obuf.cells a) ∧
      (∀ a, t.outLen ≤ a → lookupCell t.obuf.cells a = none) ∧ t.ibuf = s.ibuf ∧ t.op = s.op ∧
      t.inLen = s.inLen ∧ t.config = s.config ∧ t.value = s.value ∧ t.b = s.b ∧ t.c = s.c ∧ t.d = s.d ∧
      t.gi = s.gi ∧ t.pad = s.pad ∧ t.ng = s.ng ∧ t.host = s.host ∧
      (s.config.errInfo = .noInfo → t.errIdx = s.errIdx ∧ t.errChar = s.errChar)

/-- R153: in IDLE, with no move of the host, nothing changes; waiting for DONE ends at once. The host's moves are a
list by the model's choice (log 5). -/
def Obligations.IdleStep : Prop :=
  ∀ s : State, s.phase = .idle →
    (s.host = [] → step s = .next s) ∧
      (∀ rest, s.host = .await :: rest → step s = .next { s with host := rest })

/-- R150, R19: the reset event leaves the core IDLE with no DONE signalled and no element of either buffer
specified, in either phase; the build and the host's other moves stay. -/
def Obligations.ResetEventStep : Prop :=
  ∀ (s : State) (rest : List HostMove), s.host = .reset :: rest →
    ∃ t, step s = .next t ∧ t.phase = .idle ∧ t.done = false ∧ t.ibuf.cells = [] ∧ t.obuf.cells = [] ∧
      t.config = s.config ∧ t.host = rest

/-- R150, R19: right after reset PHASE is IDLE, no DONE has been signalled and no buffer element is specified. That
the host has no move then is the model's choice (log 5). -/
def Obligations.ResetState : Prop :=
  State.reset.phase = .idle ∧ State.reset.done = false ∧ State.reset.ibuf.cells = [] ∧
    State.reset.obuf.cells = [] ∧ State.reset.host = []

/-- R33: no step but a host write or a reset changes IBUF; and OBUF is never read: which elements of OBUF a step
writes or makes unspecified (`touched`), what stands in them afterwards, and every effect outside OBUF are the same
whatever OBUF holds, and every other element of OBUF keeps what it held. -/
def Obligations.CoreLeavesIbufAndIgnoresObuf : Prop :=
  ∀ s t : State, step s = .next t →
    ((∀ i v rest, s.host ≠ .writeIbuf i v :: rest) → (∀ rest, s.host ≠ .reset :: rest) → t.ibuf = s.ibuf) ∧
      ∃ touched : Nat → Bool, ∀ o : Buffer, ∃ o' : Buffer, step { s with obuf := o } = .next { t with obuf := o' } ∧
        ∀ a, lookupCell o'.cells a = if touched a then lookupCell t.obuf.cells a else lookupCell o.cells a

/-- R5: no step changes the build's parameters. -/
def Obligations.StepKeepsConfig : Prop :=
  ∀ s t : State, step s = .next t → t.config = s.config

/-- R157, R158, R37, R30, R17: a step answers a next state exactly when the host's next move is one the spec gives
it. The host's moves are a list by the model's choice (log 5). A write of IN_LEN is one where the value fits the
build's LEN_BITS bits (log 12). -/
def Obligations.StepAnswersExactlyTheDisciplinedHost : Prop :=
  ∀ s : State, (∃ t, step s = .next t) ↔ Disciplined s

/-- R163, R116: from BUSY, with no host move or the host waiting, the core reaches DONE within six steps a remaining
group and one more. Five look-ups and the arithmetic as six steps are the model's choice (log 8), as is the list of
the host's moves (log 5). -/
def Obligations.EveryOperationEnds : Prop :=
  ∀ s : State, s.phase = .busy → LeftAlone s →
    ∃ n t, n ≤ 6 * (s.ng - s.gi) + 1 ∧ core.run n s = .next t ∧ t.phase = .idle ∧ t.done = true

/-- R100: once START has passed, no look-up of a DECODE meets an invalid character. `slot` is the model's own (log
8). -/
def Obligations.LookupsAfterStartAreValid : Prop :=
  ∀ s : State, SequenceInv s → s.phase = .busy → s.op = 1#1 → s.gi < s.ng → s.slot ≠ 5 →
    ∃ (i : Instr) (dg : Digit), fetchSym s = .ok i ∧ i.digit? = some dg ∧ rev (decLoad s) = some dg

/-! ### The host's port -/

/-- R158: host writes in BUSY are refused. -/
def Obligations.HostWritesInBusyAreRefused : Prop :=
  ∀ (s : State) (rest : List HostMove), s.phase = .busy →
    (∀ v, s.host = .writeOp v :: rest → step s = .refused .hostWriteWhileBusy) ∧
      (∀ n, s.host = .writeLen n :: rest → step s = .refused .hostWriteWhileBusy) ∧
      (∀ i v, s.host = .writeIbuf i v :: rest → step s = .refused .hostWriteWhileBusy)

/-- R31, R17: after the host writes an element of IBUF, that element reads as written and every other as before, and
no register changes; after it writes OP or IN_LEN, that register holds the value written, and nothing else changes.
The host's moves are a list by the model's choice (log 5). A value for IN_LEN fits the build's LEN_BITS bits. -/
def Obligations.HostWrites : Prop :=
  ∀ (s : State) (rest : List HostMove), s.phase = .idle →
    (∀ i v, s.host = .writeIbuf i v :: rest → hasElement s.config.maxLen i = true →
      ∃ t, step s = .next t ∧ t = { s with ibuf := t.ibuf, host := rest } ∧ t.ibuf.read i = v ∧
        ∀ j, j ≠ i → t.ibuf.read j = s.ibuf.read j) ∧
      (∀ v, s.host = .writeOp v :: rest → step s = .next { s with op := v, host := rest }) ∧
      (∀ n, s.host = .writeLen n :: rest → fitsLen s.config.lenBits n = true →
        step s = .next { s with inLen := n, host := rest })

/-- R159: after an ENCODE, and after a DECODE that succeeds, the host reads PHASE 0, STATUS 0, the length and the
elements of the result. PACE collapsed is the model's choice (log 7). -/
def Obligations.HostReadsTheResult : Prop :=
  ∀ s t : State, Ready s → s.config.pace = .collapsed →
    (exec .cmdEncode s = .next t →
      hostReadPhase t = 0 ∧ hostReadStatus t = 0 ∧ hostReadOutLen t = (encodeSeq (inputSeq s)).length ∧
        hostReadResult t = encodeSeq (inputSeq s)) ∧
      (∀ out, exec .cmdDecode s = .next t → decodeSeq s.config.ovfMode (inputSeq s) = .ok out →
        hostReadPhase t = 0 ∧ hostReadStatus t = 0 ∧ hostReadOutLen t = out.length ∧ hostReadResult t = out)

/-- R17, R130, R159: after a failed DECODE the host reads the code of its error and length 0, and, with ERR_INFO =
index_and_char, the index and character of an InvalidCharacter and the index of a ValueOverflow. PACE collapsed is
the model's choice (log 7). -/
def Obligations.HostReadsTheError : Prop :=
  ∀ (s t : State) (e : Err), Ready s → s.config.pace = .collapsed → exec .cmdDecode s = .next t →
    decodeSeq s.config.ovfMode (inputSeq s) = .error e →
    hostReadPhase t = 0 ∧ hostReadStatus t = statusCode (errStatus e) ∧ hostReadOutLen t = 0 ∧
      (s.config.errInfo = .indexAndChar →
        (∀ i x, e = .invalidCharacter i x → hostReadErrIdx t = i ∧ hostReadErrChar t = x) ∧
          (∀ i, e = .valueOverflow i → hostReadErrIdx t = i))

/-! ### Invariants and refinement -/

/-- The buffers keep their canonical form and their room under every step. The draws of unspecified elements are the
model's own (log 2). -/
def Obligations.StepKeepsMemoryForm : Prop :=
  ∀ s t : State, MemoryInv s → step s = .next t → MemoryInv t

/-- R17, R133: once an operation has completed, OUT_LEN is 0 after an error, and STATUS 3 needs OVF_MODE = fault, under
every step. Nothing is claimed of either from reset to the first DONE (R19), nor while a next operation goes on
(R158). -/
def Obligations.StepKeepsResultRegisters : Prop :=
  ∀ s t : State, ResultInv s → step s = .next t → ResultInv t

/-- R15, R100, R153 to R156: an operation in progress stays where its sequencing says, under every step. `slot` is
the model's own (log 8). -/
def Obligations.StepKeepsSequencing : Prop :=
  ∀ s t : State, SequenceInv s → step s = .next t → SequenceInv t

/-- R15, R17: in a build whose LEN_BITS is enough bits (R5), the LEN_BITS registers never wrap, under every step. After
the reset event this rests, of IN_LEN, `gi` and `ng`, on the zeros the model holds there, the model's choice (log 1):
R19 and R150 leave them unspecified. -/
def Obligations.StepKeepsWidths : Prop :=
  ∀ s t : State, s.config.wf = true → SequenceInv s → WidthInv s → step s = .next t → WidthInv t

/-- R37, R160: no step lists an element of OBUF outside the room for whole groups. -/
def Obligations.StepKeepsObufRoom : Prop :=
  ∀ s t : State, SequenceInv s → RoomInv s → step s = .next t → RoomInv t

/-- The invariants hold right after reset, in every build. Nothing is claimed of a result register there (R19). That
IN_LEN, `gi` and `ng` fit LEN_BITS bits there rests on their values, the model's choice (log 1), and the build of
`State.reset` itself is the model's choice too (log 6). -/
def Obligations.InvariantsHoldAtReset : Prop :=
  ∀ cfg : Config,
    let s : State := { State.reset with config := cfg }
    MemoryInv s ∧ ResultInv s ∧ SequenceInv s ∧ WidthInv s ∧ RoomInv s

/-- R155: ENCODE shown group step by group step ends, after START, `ng` group steps and DONE, in the very state that
the collapsed transition gives. PACE is the model's choice (log 7). -/
def Obligations.EncodeStepsRefineTheCommand : Prop :=
  ∀ s : State, Ready s → s.op = 0#1 → s.host = [.start] →
    ∃ t, step (withPace .collapsed s) = .next (withPace .collapsed t) ∧
      core.run (encGroupCount s.inLen + 2) (withPace .stepwise s) = .next (withPace .stepwise t) ∧
      t.phase = .idle ∧ t.done = true

/-- R155: DECODE shown look-up by look-up ends, within START, six steps a group and DONE, in the very state that the
collapsed transition gives, whether it succeeds or fails. PACE and the six steps a group are the model's choice (log
7, log 8). -/
def Obligations.DecodeStepsRefineTheCommand : Prop :=
  ∀ s : State, Ready s → s.op = 1#1 → s.host = [.start] →
    ∃ t, step (withPace .collapsed s) = .next (withPace .collapsed t) ∧
      core.run (6 * decGroupCount s.inLen + 2) (withPace .stepwise s) = .next (withPace .stepwise t) ∧
      t.phase = .idle ∧ t.done = true
end

