-- ==== Sys2Proof/Laws/Memory.lean ====
section
/-! SUPPORT. What the buffer operations do: a read after a write, and that each keeps the canonical form. -/

namespace Sys2Proof.Machine

theorem lookupCell_insertCell (i j : Nat) (v : Byte) (cells : List Host.Cell) :
    lookupCell (insertCell i v cells) j = if i = j then some v else lookupCell cells j := by
  induction cells with
  | nil => rfl
  | cons cell rest ih =>
    obtain ⟨k, w⟩ := cell
    rw [insertCell]
    split
    · rfl
    · split
      · subst_vars
        simp only [lookupCell]
        split <;> rfl
      · simp only [lookupCell, ih]
        split <;> split <;> simp_all

/-- A read after a write gives the value written there, and what stood there before everywhere else. -/
theorem read_write (m : Buffer) (i j : Nat) (v : Byte) :
    (m.write i v).read j = if i = j then v else m.read j := by
  simp only [Buffer.read, Buffer.write, lookupCell_insertCell]
  by_cases h : i = j <;> simp [h]

/-- What is listed after a sequence of writes: what was written there, and what was listed before elsewhere. -/
theorem lookupCell_writeSeq (xs : List Byte) (m : Buffer) (i j : Nat) :
    lookupCell (m.writeSeq i xs).cells j =
      if h : i ≤ j ∧ j < i + xs.length then some xs[j - i] else lookupCell m.cells j := by
  induction xs generalizing m i with
  | nil => simp [Buffer.writeSeq]
  | cons v rest ih =>
    rw [Buffer.writeSeq, ih, Buffer.write, lookupCell_insertCell]
    by_cases hij : i = j
    · subst hij; simp
    · by_cases h : i + 1 ≤ j ∧ j < i + 1 + rest.length
      · have h' : i ≤ j ∧ j < i + (v :: rest).length := by simp; omega
        obtain ⟨n, rfl⟩ : ∃ n, j = i + 1 + n := ⟨j - (i + 1), by omega⟩
        have e : i + 1 + n - i = n + 1 := by omega
        rw [dif_pos h, dif_pos h']
        simp [e]
      · have h' : ¬(i ≤ j ∧ j < i + (v :: rest).length) := by simp; omega
        rw [dif_neg h, dif_neg h', if_neg hij]

/-- No write changes the draw a buffer's unspecified elements belong to. -/
theorem writeSeq_gen (xs : List Byte) (m : Buffer) (i : Nat) : (m.writeSeq i xs).gen = m.gen := by
  induction xs generalizing m i with
  | nil => rfl
  | cons v rest ih => exact ih (m.write i v) (i + 1)

/-- A read after a sequence of writes. -/
theorem read_writeSeq (xs : List Byte) (m : Buffer) (i j : Nat) :
    (m.writeSeq i xs).read j = if h : i ≤ j ∧ j < i + xs.length then xs[j - i] else m.read j := by
  rw [Buffer.read, lookupCell_writeSeq, writeSeq_gen]
  by_cases h : i ≤ j ∧ j < i + xs.length
  · rw [dif_pos h, dif_pos h]
  · rw [dif_neg h, dif_neg h, Buffer.read]

theorem lookupCell_filter (n j : Nat) (cells : List Host.Cell) :
    lookupCell (cells.filter (fun cell => decide (cell.1 < n))) j = if j < n then lookupCell cells j else none := by
  induction cells with
  | nil => simp [lookupCell]
  | cons cell rest ih =>
    obtain ⟨k, w⟩ := cell
    by_cases hk : k < n
    · simp only [List.filter_cons, hk, decide_true, if_true, lookupCell, ih]
      split <;> simp_all
    · rw [List.filter_cons_of_neg (by simpa using hk), ih, lookupCell]
      by_cases hj : j < n
      · rw [if_neg (show k ≠ j by omega)]
      · simp [hj]

/-- Below the cut a truncated buffer still holds what was listed; at the cut and above nothing is specified. -/
theorem read_truncate (m : Buffer) (n draw j : Nat) :
    (m.truncate n draw).read j =
      if j < n then (lookupCell m.cells j).getD (Config.freeByte draw j) else Config.freeByte draw j := by
  simp only [Buffer.read, Buffer.truncate, lookupCell_filter]
  split <;> rename_i h <;> (try split) <;> simp_all

theorem mem_insertCell {i : Nat} {v : Byte} {cells : List Host.Cell} {cell : Host.Cell}
    (h : cell ∈ insertCell i v cells) : cell = (i, v) ∨ cell ∈ cells := by
  induction cells with
  | nil => simpa [insertCell] using h
  | cons head rest ih =>
    obtain ⟨k, w⟩ := head
    rw [insertCell] at h
    split at h
    · simpa using h
    · split at h
      · rcases List.mem_cons.mp h with h | h <;> simp [h]
      · rcases List.mem_cons.mp h with h | h
        · simp [h]
        · rcases ih h with h | h <;> simp [h]

theorem insertCell_rising (i : Nat) (v : Byte) (cells : List Host.Cell)
    (h : (cells.map Prod.fst).Pairwise (· < ·)) : ((insertCell i v cells).map Prod.fst).Pairwise (· < ·) := by
  induction cells with
  | nil => simp [insertCell]
  | cons cell rest ih =>
    obtain ⟨k, w⟩ := cell
    have hr := List.pairwise_cons.mp h
    rw [insertCell]
    split
    · refine List.pairwise_cons.mpr ⟨fun a ha => ?_, h⟩
      rcases List.mem_cons.mp ha with rfl | ha
      · assumption
      · exact Nat.lt_trans ‹i < k› (hr.1 a ha)
    · split
      · subst_vars; exact h
      · refine List.pairwise_cons.mpr ⟨fun a ha => ?_, ih hr.2⟩
        obtain ⟨cell, hc, rfl⟩ := List.mem_map.mp ha
        rcases mem_insertCell hc with rfl | hc
        · show k < i
          omega
        · exact hr.1 _ (List.mem_map_of_mem hc)

/-- A write keeps the canonical form. -/
theorem write_wf {m : Buffer} (h : m.wf) (i : Nat) (v : Byte) : (m.write i v).wf :=
  insertCell_rising i v m.cells h

/-- A sequence of writes keeps the canonical form. -/
theorem writeSeq_wf (xs : List Byte) {m : Buffer} (h : m.wf) (i : Nat) : (m.writeSeq i xs).wf := by
  induction xs generalizing m i with
  | nil => exact h
  | cons v rest ih => exact ih (write_wf h i v) (i + 1)

/-- Truncation keeps the canonical form. -/
theorem truncate_wf {m : Buffer} (h : m.wf) (n draw : Nat) : (m.truncate n draw).wf :=
  List.Pairwise.sublist (List.filter_sublist.map Prod.fst) h

/-- A buffer with no specified element is in canonical form. -/
theorem unspecified_wf (draw : Nat) : (Buffer.unspecified draw).wf := List.Pairwise.nil

/-- The elements listed after a sequence of writes are those listed before and those written. -/
theorem mem_writeSeq {xs : List Byte} {m : Buffer} {i : Nat} {cell : Host.Cell}
    (h : cell ∈ (m.writeSeq i xs).cells) : cell ∈ m.cells ∨ i ≤ cell.1 ∧ cell.1 < i + xs.length := by
  induction xs generalizing m i with
  | nil => exact .inl h
  | cons v rest ih =>
    rcases ih h with h | h
    · rcases mem_insertCell h with rfl | h
      · exact .inr ⟨Nat.le_refl _, by simp⟩
      · exact .inl h
    · exact .inr ⟨by omega, by simp; omega⟩

/-- Right after reset both buffers are in canonical form. -/
theorem reset_memory_wf : State.reset.ibuf.wf ∧ State.reset.obuf.wf := ⟨List.Pairwise.nil, List.Pairwise.nil⟩

end Sys2Proof.Machine
end

