-- ==== Sys2Proof/Laws/Sequences.lean ====
section
/-! SUPPORT. Lemmas about the primitives and the two functions on sequences. -/

namespace Sys2Proof.Machine

/-- The padding count of ENCODE as one expression. -/
theorem encPad_val (n : Nat) : (encPad n).val = (4 - n % 4) % 4 := by simp [encPad]; split <;> omega

/-- The number of groups of ENCODE as one expression. -/
theorem encGroupCount_eq (n : Nat) : encGroupCount n = (n + 3) / 4 := by
  simp [encGroupCount, encPad]; split <;> omega

/-- The padding count of DECODE as one expression. -/
theorem decPad_val (l : Nat) : (decPad l).val = (5 - l % 5) % 5 := by simp [decPad]; split <;> omega

/-- The number of groups of DECODE as one expression. -/
theorem decGroupCount_eq (l : Nat) : decGroupCount l = (l + 4) / 5 := by
  simp [decGroupCount, decPad]; split <;> omega

/-- The length of `n` pieces of length `k`. -/
theorem flatMap_range_length {α} (f : Nat → List α) (k : Nat) (h : ∀ g, (f g).length = k) (n : Nat) :
    ((List.range n).flatMap f).length = k * n := by
  induction n with
  | zero => simp
  | succ n ih => rw [List.range_succ, List.flatMap_append, List.length_append, ih]; simp [h, Nat.mul_succ]

/-- The first `n` pieces, then `m` more. -/
theorem flatMap_range_add {α} (f : Nat → List α) (n m : Nat) :
    (List.range (n + m)).flatMap f = (List.range n).flatMap f ++ (List.range m).flatMap (fun g => f (n + g)) := by
  rw [List.range_add, List.flatMap_append, List.flatMap_map]

theorem flatMap_range_congr {α} (f g : Nat → List α) (n : Nat) (h : ∀ i, i < n → f i = g i) :
    (List.range n).flatMap f = (List.range n).flatMap g := by
  apply List.flatMap_congr
  intro a ha; exact h a (List.mem_range.mp ha)

/-- Element `j` of piece `g`. -/
theorem flatMap_range_getElem? {α} (f : Nat → List α) (k : Nat) (h : ∀ g, (f g).length = k) (n g j : Nat) (hg :
    g < n) (hj : j < k) :
    ((List.range n).flatMap f)[k * g + j]? = (f g)[j]? := by
  induction n with
  | zero => omega
  | succ n ih =>
    rw [List.range_succ, List.flatMap_append]
    have hl := flatMap_range_length f k h n
    by_cases hgn : g < n
    · have : k * g + j < k * n := by
        have : k * (g + 1) ≤ k * n := Nat.mul_le_mul_left k (by omega)
        rw [Nat.mul_succ] at this; omega
      rw [List.getElem?_append_left (by omega), ih hgn]
    · have : g = n := by omega
      subst this
      rw [List.getElem?_append_right (by omega), hl]
      simp

theorem encGroupSeq_length (data : List Byte) (g : Nat) : (encGroupSeq data g).length = 5 := by simp [encGroupSeq]

/-- The length of an encoding, before it is put in closed form. -/
theorem encodeSeq_length (data : List Byte) : (encodeSeq data).length
    = 5 * encGroupCount data.length - (encPad data.length).val := by
  simp only [encodeSeq, List.length_take, flatMap_range_length _ 5 (encGroupSeq_length data), encTrunc]
  omega

/-- A load inside the first part of a sequence. -/
theorem encLoadSeq_append_left (x y : List Byte) (g k : Nat) (h : 4 * g + k < x.length) :
    encLoadSeq (x ++ y) g k = encLoadSeq x g k := by
  simp [encLoadSeq, List.getElem?_append_left h]

/-- A load past a first part of whole groups. -/
theorem encLoadSeq_append_right (x y : List Byte) (q g k : Nat) (h : x.length = 4 * q) :
    encLoadSeq (x ++ y) (q + g) k = encLoadSeq y g k := by
  simp only [encLoadSeq]
  rw [List.getElem?_append_right (by omega)]
  have : 4 * (q + g) + k - x.length = 4 * g + k := by omega
  rw [this]

/-- A load inside the first part of a text. -/
theorem decLoadSeq_append_left (x y : List Byte) (g k : Nat) (h : 5 * g + k < x.length) :
    decLoadSeq (x ++ y) g k = decLoadSeq x g k := by
  simp [decLoadSeq, List.getElem?_append_left h]

/-- A load past a first part of whole quintets. -/
theorem decLoadSeq_append_right (x y : List Byte) (q g k : Nat) (h : x.length = 5 * q) :
    decLoadSeq (x ++ y) (q + g) k = decLoadSeq y g k := by
  simp only [decLoadSeq]
  rw [List.getElem?_append_right (by omega)]
  have : 5 * (q + g) + k - x.length = 5 * g + k := by omega
  rw [this]

theorem rev_padChar : rev padChar = some 84 := by decide

theorem rev_fwd : ∀ i : Digit, rev (fwd i) = some i := by decide

/-- The validation pass finds nothing exactly when every character is a symbol. -/
theorem firstInvalid_none {text : List Byte} {i : Nat} :
    firstInvalid text i = none ↔ ∀ x ∈ text, (rev x).isSome = true := by
  induction text generalizing i with
  | nil => simp [firstInvalid]
  | cons x rest ih =>
    rw [firstInvalid]
    cases h : rev x <;> simp [h, ih]

/-- The validation pass finds the lowest invalid character. -/
theorem firstInvalid_some {text : List Byte} {i j : Nat} (h : j < text.length) (hj : rev text[j] = none)
    (hl : ∀ k (hk : k < j), (rev text[k]).isSome = true) : firstInvalid text i = some (i + j, text[j]) := by
  induction text generalizing i j with
  | nil => simp at h
  | cons x rest ih =>
    rw [firstInvalid]
    cases j with
    | zero => simp only [List.getElem_cons_zero] at hj; simp [hj]
    | succ j =>
      have := hl 0 (by omega)
      simp only [List.getElem_cons_zero] at this
      obtain ⟨d, hd⟩ := Option.isSome_iff_exists.mp this
      simp only [hd]
      rw [ih (j := j) (by simpa using h) (by simpa using hj) (fun k hk => by simpa using hl (k + 1) (by omega))]
      simp; omega

/-- In a text of symbols every load, padding included, is a symbol. -/
theorem rev_decLoadSeq {text : List Byte} (hv : ∀ x ∈ text, (rev x).isSome = true) (g k : Nat) :
    rev (decLoadSeq text g k) = some (digitAt text g k) := by
  simp only [digitAt]
  have : (rev (decLoadSeq text g k)).isSome = true := by
    simp only [decLoadSeq]
    cases h : text[5 * g + k]? with
    | none => exact (by decide)
    | some x => exact hv x (List.mem_of_getElem? h)
  obtain ⟨d, hd⟩ := Option.isSome_iff_exists.mp this
  simp [hd]

theorem decDigitsSeq_valid {text : List Byte} (hv : ∀ x ∈ text, (rev x).isSome = true) (g : Nat) :
    decDigitsSeq text g = .ok (groupDigits text g) := by
  simp only [decDigitsSeq, decUnmapSeq, rev_decLoadSeq hv, groupDigits]

/-- DEC.GROUP of a text of symbols. -/
theorem decGroupSeq_valid {text : List Byte} (hv : ∀ x ∈ text, (rev x).isSome = true) (m : OvfMode) (g : Nat) :
    decGroupSeq m text g = match decNarrow m (groupValue text g) with
      | some v => .ok (decUnpack v).toList
      | none => .error (.valueOverflow (5 * g)) := by
  simp only [decGroupSeq, decDigitsSeq_valid hv g, groupValue]
  try rfl

/-- The four bytes of group `g` where none overflows or OVF_MODE is wrap. -/
def groupBytes (text : List Byte) (g : Nat) : List Byte := (decUnpack (BitVec.ofNat 32 (groupValue text g))).toList

theorem groupBytes_length (text : List Byte) (g : Nat) : (groupBytes text g).length = 4 := by simp [groupBytes]

theorem groupValue_append_left (x y : List Byte) (g : Nat) (h : 5 * g + 5 ≤ x.length) :
    groupValue (x ++ y) g = groupValue x g := by
  simp only [groupValue, groupDigits, digitAt]
  simp only [decLoadSeq_append_left _ _ _ _ (show 5 * g + 0 < x.length by omega),
      decLoadSeq_append_left _ _ _ _ (show 5 * g + 1 < x.length by omega),
      decLoadSeq_append_left _ _ _ _ (show 5 * g + 2 < x.length by omega),
      decLoadSeq_append_left _ _ _ _ (show 5 * g + 3 < x.length by omega),
      decLoadSeq_append_left _ _ _ _ (show 5 * g + 4 < x.length by omega)]

theorem groupValue_append_right (x y : List Byte) (q g : Nat) (h : x.length = 5 * q) :
    groupValue (x ++ y) (q + g) = groupValue y g := by
  simp only [groupValue, groupDigits, digitAt, decLoadSeq_append_right x y q g _ h]

/-- DEC.NARROW gives the low 32 bits where it does not raise. -/
theorem decNarrow_some {m : OvfMode} {a : Nat} (h : m = .wrap ∨ a < 2 ^ 32) :
    decNarrow m a = some (BitVec.ofNat 32 a) := by
  simp only [decNarrow]
  by_cases ha : a < 4294967296
  · simp [ha]
  · rcases h with rfl | h
    · simp only [ha, if_false, Option.some.injEq]
      apply BitVec.eq_of_toNat_eq; simp
    · exact absurd (by simpa using h) ha

theorem decNarrow_none {a : Nat} (h : 2 ^ 32 ≤ a) : decNarrow .fault a = none := by
  simp only [decNarrow]; norm_num at h; simp [Nat.not_lt.mpr h]

/-- The groups of a text of symbols where none raises. -/
theorem decGroupsSeq_ok {text : List Byte} (hv : ∀ x ∈ text, (rev x).isSome = true) (m : OvfMode) (n g : Nat)
    (hn : m = .wrap ∨ ∀ h, g ≤ h → h < g + n → groupValue text h < 2 ^ 32) :
    decGroupsSeq m text n g = .ok ((List.range n).flatMap (fun j => groupBytes text (g + j))) := by
  induction n generalizing g with
  | zero => rfl
  | succ n ih =>
    rw [decGroupsSeq, decGroupSeq_valid hv, decNarrow_some (hn.imp id fun h => h g (Nat.le_refl _) (by omega)),
        ih (g + 1) (hn.imp id fun h k h1 h2 => h k (by omega) (by omega))]
    rw [Nat.add_comm n 1, flatMap_range_add]
    simp [groupBytes, Nat.add_assoc]

/-- The first overflowing group ends the arithmetic pass. -/
theorem decGroupsSeq_overflow {text : List Byte} (hv : ∀ x ∈ text, (rev x).isSome = true) (n g h : Nat)
    (h1 : g ≤ h) (h2 : h < g + n) (h3 : 2 ^ 32 ≤ groupValue text h) (h4 : ∀ k,
        g ≤ k → k < h → groupValue text k < 2 ^ 32) :
    decGroupsSeq .fault text n g = .error (.valueOverflow (5 * h)) := by
  induction n generalizing g with
  | zero => omega
  | succ n ih =>
    rw [decGroupsSeq, decGroupSeq_valid hv]
    by_cases hg : g = h
    · subst hg; rw [decNarrow_none h3]
    · rw [decNarrow_some (.inr (h4 g (Nat.le_refl _) (by omega))),
        ih (g + 1) (by omega) (by omega) (fun k a b => h4 k (by omega) b)]

/-- DECODE where no check fails. -/
theorem decodeSeq_ok {text : List Byte} (hl : text.length % 5 ≠ 1) (hv : ∀ x ∈ text, (rev x).isSome = true) (m :
    OvfMode)
    (hn : m = .wrap ∨ ∀ g, g < decGroupCount text.length → groupValue text g < 2 ^ 32) :
    decodeSeq m text = .ok (((List.range (decGroupCount text.length)).flatMap (groupBytes text)).take
      (decTrunc (decGroupCount text.length) (decPad text.length))) := by
  have := decGroupsSeq_ok hv m (decGroupCount text.length) 0 (hn.imp id fun h g _ h2 => h g (by omega))
  simp only [Nat.zero_add] at this
  simp [decodeSeq, decLengthBad, hl, firstInvalid_none.mpr hv, this]

/-- Five digits of a word, put together again. -/
theorem digits_sum (v : Word) : decAcc (encDigits v) = v.toNat := by
  have := v.isLt
  simp [decAcc, encDigits]; omega

theorem decAcc_sum (d : Vector Digit 5) : decAcc d
    = d[0].val * 52200625 + d[1].val * 614125 + d[2].val * 7225 + d[3].val * 85 + d[4].val := by
  simp only [decAcc]; ring

/-- The bytes of a sum of four bytes at their places. -/
theorem bytes_of_sum (x b0 b1 b2 b3 : Nat) (h0 : b0 < 256) (h1 : b1 < 256) (h2 : b2 < 256) (h3 : b3 < 256)
    (hx : x = b0 * 16777216 + b1 * 65536 + b2 * 256 + b3) :
    x < 4294967296 ∧ x / 16777216 % 256 = b0 ∧ x / 65536 % 256 = b1 ∧ x / 256 % 256 = b2 ∧ x % 256 = b3 := by
  have e0 : x / 16777216 = b0 := by omega
  have e1 : x / 65536 = b0 * 256 + b1 := by omega
  have e2 : x / 256 = (b0 * 256 + b1) * 256 + b2 := by omega
  refine ⟨by omega, by omega, by omega, by omega, by omega⟩

theorem split_bytes (r : Nat) : r = r / 65536 * 65536 + r / 256 % 256 * 256 + r % 256 := by omega

/-- Replacing the last `p` digits of a word whose last `p` bytes are 0 by 84 changes none of its other bytes. -/
theorem filler_keeps_bytes (x b0 b1 b2 b3 e0 e1 e2 e3 e4 d0 d1 d2 d3 d4 p : Nat)
    (hx : x = d0 * 52200625 + d1 * 614125 + d2 * 7225 + d3 * 85 + d4)
    (h0 : b0 < 256) (h1 : b1 < 256) (h2 : b2 < 256) (h3 : b3 < 256)
    (he : e0 * 52200625 + e1 * 614125 + e2 * 7225 + e3 * 85 + e4 = b0 * 16777216 + b1 * 65536 + b2 * 256 + b3)
    (l2 : e2 < 85) (l3 : e3 < 85) (l4 : e4 < 85) (g0 : d0 = e0) (g1 : d1 = e1)
    (hp : (p = 0 ∧ d2 = e2 ∧ d3 = e3 ∧ d4 = e4) ∨ (p = 1 ∧ d2 = e2 ∧ d3 = e3 ∧ d4 = 84 ∧ b3 = 0) ∨
      (p = 2 ∧ d2 = e2 ∧ d3 = 84 ∧ d4 = 84 ∧ b3 = 0 ∧ b2 = 0) ∨
      (p = 3 ∧ d2 = 84 ∧ d3 = 84 ∧ d4 = 84 ∧ b3 = 0 ∧ b2 = 0 ∧ b1 = 0)) :
    x < 4294967296 ∧ x / 16777216 % 256 = b0 ∧ (p ≤ 2 → x / 65536 % 256 = b1) ∧ (p ≤ 1 → x / 256 % 256 = b2) ∧
      (p = 0 → x % 256 = b3) := by
  subst g0 g1
  have fin : ∀ r, r < 16777216 → (p ≤ 2 → r / 65536 = b1) → (p ≤ 1 → r / 256 % 256 = b2) → (p = 0 → r % 256 = b3) →
      x = b0 * 16777216 + r → x < 4294967296 ∧ x / 16777216 % 256 = b0 ∧ (p ≤ 2 → x / 65536 % 256 = b1) ∧
        (p ≤ 1 → x / 256 % 256 = b2) ∧ (p = 0 → x % 256 = b3) := by
    intro r hr r1 r2 r3 hxr
    obtain ⟨k, k0, k1, k2, k3⟩ := bytes_of_sum x b0 (r / 65536) (r / 256 % 256) (r % 256) h0 (by omega) (by omega) (by omega)
      (by rw [hxr]; conv_lhs => rw [split_bytes r]
          ring)
    exact ⟨k, k0, fun h => by rw [k1, r1 h], fun h => by rw [k2, r2 h], fun h => by rw [k3, r3 h]⟩
  rcases hp with ⟨rfl, rfl, rfl, rfl⟩ | ⟨rfl, rfl, rfl, rfl, rfl⟩ | ⟨rfl, rfl, rfl, rfl, rfl, rfl⟩ | ⟨rfl, rfl,
      rfl, rfl, rfl, rfl, rfl⟩
  · obtain ⟨k, k0, k1, k2, k3⟩ := bytes_of_sum x b0 b1 b2 b3 h0 h1 h2 h3 (by rw [hx, he])
    exact ⟨k, k0, fun _ => k1, fun _ => k2, fun _ => k3⟩
  · obtain ⟨r, hr⟩ := Nat.exists_eq_add_of_le (show e4 ≤ 84 from by clear hx he fin; omega)
    have hxr : x = b0 * 16777216 + (b1 * 65536 + b2 * 256 + r) := by linarith
    clear hx he
    exact fin _ (by omega) (fun _ => by omega) (fun _ => by omega) (fun h => by omega) hxr
  · obtain ⟨r, hr⟩ := Nat.exists_eq_add_of_le (show e3 * 85 + e4 ≤ 7224 from by clear hx he fin; omega)
    have hxr : x = b0 * 16777216 + (b1 * 65536 + r) := by linarith
    clear hx he
    exact fin _ (by omega) (fun _ => by omega) (fun h => by omega) (fun h => by omega) hxr
  · have hle : e2 * 7225 + e3 * 85 + e4 ≤ 614124 := by clear hx he fin; omega
    obtain ⟨r, hr⟩ := Nat.exists_eq_add_of_le hle
    have hxr : x = b0 * 16777216 + r := by linarith
    clear hx he
    exact fin _ (by omega) (fun h => by omega) (fun h => by omega) (fun h => by omega) hxr

/-- The same through DEC.ACC and DEC.UNPACK: `p` filler digits leave the first `4 - p` bytes alone. -/
theorem unpack_of_filled (b : Vector Byte 4) (p : Nat) (hp : p ≤ 3) (hz : ∀ k (hk : k < 4), 4 - p ≤ k → b[k]
    = 0) (d : Vector Digit 5)
    (hd : ∀ k (hk : k < 5), d[k] = if k < 5 - p then (encDigits (encPack b))[k] else 84) :
    decAcc d < 2 ^ 32 ∧ ∀ k (hk : k < 4), k < 4 - p → (decUnpack (BitVec.ofNat 32 (decAcc d)))[k] = b[k] := by
  have hV : (encPack b).toNat = b[0].toNat * 16777216 + b[1].toNat * 65536 + b[2].toNat * 256 + b[3].toNat := by
    simp only [encPack, BitVec.toNat_ofNat]
    have h0 := b[0].isLt; have h1 := b[1].isLt; have h2 := b[2].isLt; have h3 := b[3].isLt
    norm_num at *; omega
  have hE := digits_sum (encPack b)
  rw [hV, decAcc_sum] at hE
  generalize encDigits (encPack b) = e at hE hd
  have hz' : ∀ k (hk : k < 4), 4 - p ≤ k → b[k].toNat = 0 := fun k hk h => by rw [hz k hk h]; rfl
  have key := filler_keeps_bytes (decAcc d) b[0].toNat b[1].toNat b[2].toNat b[3].toNat e[0].val e[1].val e[2].val e[3].val e[4].val
    d[0].val d[1].val d[2].val d[3].val d[4].val p (decAcc_sum d) b[0].isLt b[1].isLt b[2].isLt b[3].isLt hE e[2].isLt e[3].isLt e[4].isLt
    (by rw [hd 0 (by omega), if_pos (by omega)]) (by rw [hd 1 (by omega), if_pos (by omega)])
    (by
      have : p = 0 ∨ p = 1 ∨ p = 2 ∨ p = 3 := by omega
      have h2 := hd 2 (by omega); have h3 := hd 3 (by omega); have h4 := hd 4 (by omega)
      have z3 := hz' 3 (by omega); have z2 := hz' 2 (by omega); have z1 := hz' 1 (by omega)
      rcases this with rfl | rfl | rfl | rfl <;> simp at h2 h3 h4 z1 z2 z3 <;> simp [*])
  refine ⟨by simpa using key.1, fun k hk hkp => ?_⟩
  apply BitVec.eq_of_toNat_eq
  have hx : (BitVec.ofNat 32 (decAcc d)).toNat = decAcc d := by simp; omega
  obtain ⟨_, k0, k1, k2, k3⟩ := key
  generalize decAcc d = x at *
  have : k = 0 ∨ k = 1 ∨ k = 2 ∨ k = 3 := by omega
  simp only [decUnpack, hx]
  rcases this with rfl | rfl | rfl | rfl
  · simpa using k0
  · simpa using k1 (by omega)
  · simpa using k2 (by omega)
  · simpa using k3 (by omega)

/-- Character `k` of group `g` of an encoding. -/
theorem encodeSeq_getElem? (data : List Byte) (g k : Nat) (hk : k < 5) (h : 5 * g + k < (encodeSeq data).length) :
    (encodeSeq data)[5 * g + k]? = some (fwd (encDigits (encPack #v[encLoadSeq data g 0, encLoadSeq data g 1,
        encLoadSeq data g 2, encLoadSeq data g 3]))[k]) := by
  have hl := encodeSeq_length data
  simp only [encodeSeq]
  rw [List.getElem?_take_of_lt (by simp only [encTrunc]; omega),
      flatMap_range_getElem? _ 5 (encGroupSeq_length data) _ _ _ (by omega) hk]
  simp only [encGroupSeq, encChars]
  have : k = 0 ∨ k = 1 ∨ k = 2 ∨ k = 3 ∨ k = 4 := by omega
  rcases this with rfl | rfl | rfl | rfl | rfl <;> rfl

/-- Digit `k` of group `g` of an encoding, 84 past its end. -/
theorem digitAt_encodeSeq (data : List Byte) (g k : Nat) (hk : k < 5) :
    digitAt (encodeSeq data) g k = if 5 * g + k < (encodeSeq data).length
        then (encDigits (encPack #v[encLoadSeq data g 0, encLoadSeq data g 1, encLoadSeq data g 2,
        encLoadSeq data g 3]))[k] else 84 := by
  split
  · rename_i h
    simp only [digitAt, decLoadSeq, encodeSeq_getElem? data g k hk h, rev_fwd]
  · rename_i h
    simp only [digitAt, decLoadSeq, List.getElem?_eq_none (Nat.not_lt.mp h), rev_padChar]

end Sys2Proof.Machine
end

