-- ==== Sys2Proof/Laws/State.lean ====
section
/-! SUPPORT. One lemma per field per state update, each true by unfolding the update. -/

namespace Sys2Proof.Machine

/-! ### `setSizes` -/

@[simp] theorem setSizes_config (s : State) (p : Fin 5) (n : Nat) : (s.setSizes p n).config = s.config := rfl
@[simp] theorem setSizes_op (s : State) (p : Fin 5) (n : Nat) : (s.setSizes p n).op = s.op := rfl
@[simp] theorem setSizes_inLen (s : State) (p : Fin 5) (n : Nat) : (s.setSizes p n).inLen = s.inLen := rfl
@[simp] theorem setSizes_phase (s : State) (p : Fin 5) (n : Nat) : (s.setSizes p n).phase = s.phase := rfl
@[simp] theorem setSizes_status (s : State) (p : Fin 5) (n : Nat) : (s.setSizes p n).status = s.status := rfl
@[simp] theorem setSizes_outLen (s : State) (p : Fin 5) (n : Nat) : (s.setSizes p n).outLen = s.outLen := rfl
@[simp] theorem setSizes_errIdx (s : State) (p : Fin 5) (n : Nat) : (s.setSizes p n).errIdx = s.errIdx := rfl
@[simp] theorem setSizes_errChar (s : State) (p : Fin 5) (n : Nat) : (s.setSizes p n).errChar = s.errChar := rfl
@[simp] theorem setSizes_value (s : State) (p : Fin 5) (n : Nat) : (s.setSizes p n).value = s.value := rfl
@[simp] theorem setSizes_b (s : State) (p : Fin 5) (n : Nat) : (s.setSizes p n).b = s.b := rfl
@[simp] theorem setSizes_c (s : State) (p : Fin 5) (n : Nat) : (s.setSizes p n).c = s.c := rfl
@[simp] theorem setSizes_d (s : State) (p : Fin 5) (n : Nat) : (s.setSizes p n).d = s.d := rfl
@[simp] theorem setSizes_gi (s : State) (p : Fin 5) (n : Nat) : (s.setSizes p n).gi = s.gi := rfl
@[simp] theorem setSizes_pad (s : State) (p : Fin 5) (n : Nat) : (s.setSizes p n).pad = p := rfl
@[simp] theorem setSizes_ng (s : State) (p : Fin 5) (n : Nat) : (s.setSizes p n).ng = n := rfl
@[simp] theorem setSizes_ibuf (s : State) (p : Fin 5) (n : Nat) : (s.setSizes p n).ibuf = s.ibuf := rfl
@[simp] theorem setSizes_obuf (s : State) (p : Fin 5) (n : Nat) : (s.setSizes p n).obuf = s.obuf := rfl
@[simp] theorem setSizes_done (s : State) (p : Fin 5) (n : Nat) : (s.setSizes p n).done = s.done := rfl
@[simp] theorem setSizes_slot (s : State) (p : Fin 5) (n : Nat) : (s.setSizes p n).slot = s.slot := rfl
@[simp] theorem setSizes_fresh (s : State) (p : Fin 5) (n : Nat) : (s.setSizes p n).fresh = s.fresh := rfl
@[simp] theorem setSizes_host (s : State) (p : Fin 5) (n : Nat) : (s.setSizes p n).host = s.host := rfl

/-! ### `firstGroup` -/

@[simp] theorem firstGroup_config (s : State) : s.firstGroup.config = s.config := rfl
@[simp] theorem firstGroup_op (s : State) : s.firstGroup.op = s.op := rfl
@[simp] theorem firstGroup_inLen (s : State) : s.firstGroup.inLen = s.inLen := rfl
@[simp] theorem firstGroup_phase (s : State) : s.firstGroup.phase = s.phase := rfl
@[simp] theorem firstGroup_status (s : State) : s.firstGroup.status = s.status := rfl
@[simp] theorem firstGroup_outLen (s : State) : s.firstGroup.outLen = s.outLen := rfl
@[simp] theorem firstGroup_errIdx (s : State) : s.firstGroup.errIdx = s.errIdx := rfl
@[simp] theorem firstGroup_errChar (s : State) : s.firstGroup.errChar = s.errChar := rfl
@[simp] theorem firstGroup_value (s : State) : s.firstGroup.value = s.value := rfl
@[simp] theorem firstGroup_b (s : State) : s.firstGroup.b = s.b := rfl
@[simp] theorem firstGroup_c (s : State) : s.firstGroup.c = s.c := rfl
@[simp] theorem firstGroup_d (s : State) : s.firstGroup.d = s.d := rfl
@[simp] theorem firstGroup_gi (s : State) : s.firstGroup.gi = 0 := rfl
@[simp] theorem firstGroup_pad (s : State) : s.firstGroup.pad = s.pad := rfl
@[simp] theorem firstGroup_ng (s : State) : s.firstGroup.ng = s.ng := rfl
@[simp] theorem firstGroup_ibuf (s : State) : s.firstGroup.ibuf = s.ibuf := rfl
@[simp] theorem firstGroup_obuf (s : State) : s.firstGroup.obuf = s.obuf := rfl
@[simp] theorem firstGroup_done (s : State) : s.firstGroup.done = s.done := rfl
@[simp] theorem firstGroup_slot (s : State) : s.firstGroup.slot = s.slot := rfl
@[simp] theorem firstGroup_fresh (s : State) : s.firstGroup.fresh = s.fresh := rfl
@[simp] theorem firstGroup_host (s : State) : s.firstGroup.host = s.host := rfl

/-! ### `nextGroup` -/

@[simp] theorem nextGroup_config (s : State) : s.nextGroup.config = s.config := rfl
@[simp] theorem nextGroup_op (s : State) : s.nextGroup.op = s.op := rfl
@[simp] theorem nextGroup_inLen (s : State) : s.nextGroup.inLen = s.inLen := rfl
@[simp] theorem nextGroup_phase (s : State) : s.nextGroup.phase = s.phase := rfl
@[simp] theorem nextGroup_status (s : State) : s.nextGroup.status = s.status := rfl
@[simp] theorem nextGroup_outLen (s : State) : s.nextGroup.outLen = s.outLen := rfl
@[simp] theorem nextGroup_errIdx (s : State) : s.nextGroup.errIdx = s.errIdx := rfl
@[simp] theorem nextGroup_errChar (s : State) : s.nextGroup.errChar = s.errChar := rfl
@[simp] theorem nextGroup_value (s : State) : s.nextGroup.value = s.value := rfl
@[simp] theorem nextGroup_b (s : State) : s.nextGroup.b = s.b := rfl
@[simp] theorem nextGroup_c (s : State) : s.nextGroup.c = s.c := rfl
@[simp] theorem nextGroup_d (s : State) : s.nextGroup.d = s.d := rfl
@[simp] theorem nextGroup_gi (s : State) : s.nextGroup.gi = s.gi + 1 := rfl
@[simp] theorem nextGroup_pad (s : State) : s.nextGroup.pad = s.pad := rfl
@[simp] theorem nextGroup_ng (s : State) : s.nextGroup.ng = s.ng := rfl
@[simp] theorem nextGroup_ibuf (s : State) : s.nextGroup.ibuf = s.ibuf := rfl
@[simp] theorem nextGroup_obuf (s : State) : s.nextGroup.obuf = s.obuf := rfl
@[simp] theorem nextGroup_done (s : State) : s.nextGroup.done = s.done := rfl
@[simp] theorem nextGroup_slot (s : State) : s.nextGroup.slot = 0 := rfl
@[simp] theorem nextGroup_fresh (s : State) : s.nextGroup.fresh = s.fresh := rfl
@[simp] theorem nextGroup_host (s : State) : s.nextGroup.host = s.host := rfl

/-! ### `setBytes` -/

@[simp] theorem setBytes_config (s : State) (x : Vector Byte 4) : (s.setBytes x).config = s.config := rfl
@[simp] theorem setBytes_op (s : State) (x : Vector Byte 4) : (s.setBytes x).op = s.op := rfl
@[simp] theorem setBytes_inLen (s : State) (x : Vector Byte 4) : (s.setBytes x).inLen = s.inLen := rfl
@[simp] theorem setBytes_phase (s : State) (x : Vector Byte 4) : (s.setBytes x).phase = s.phase := rfl
@[simp] theorem setBytes_status (s : State) (x : Vector Byte 4) : (s.setBytes x).status = s.status := rfl
@[simp] theorem setBytes_outLen (s : State) (x : Vector Byte 4) : (s.setBytes x).outLen = s.outLen := rfl
@[simp] theorem setBytes_errIdx (s : State) (x : Vector Byte 4) : (s.setBytes x).errIdx = s.errIdx := rfl
@[simp] theorem setBytes_errChar (s : State) (x : Vector Byte 4) : (s.setBytes x).errChar = s.errChar := rfl
@[simp] theorem setBytes_value (s : State) (x : Vector Byte 4) : (s.setBytes x).value = s.value := rfl
@[simp] theorem setBytes_b (s : State) (x : Vector Byte 4) : (s.setBytes x).b = x := rfl
@[simp] theorem setBytes_c (s : State) (x : Vector Byte 4) : (s.setBytes x).c = s.c := rfl
@[simp] theorem setBytes_d (s : State) (x : Vector Byte 4) : (s.setBytes x).d = s.d := rfl
@[simp] theorem setBytes_gi (s : State) (x : Vector Byte 4) : (s.setBytes x).gi = s.gi := rfl
@[simp] theorem setBytes_pad (s : State) (x : Vector Byte 4) : (s.setBytes x).pad = s.pad := rfl
@[simp] theorem setBytes_ng (s : State) (x : Vector Byte 4) : (s.setBytes x).ng = s.ng := rfl
@[simp] theorem setBytes_ibuf (s : State) (x : Vector Byte 4) : (s.setBytes x).ibuf = s.ibuf := rfl
@[simp] theorem setBytes_obuf (s : State) (x : Vector Byte 4) : (s.setBytes x).obuf = s.obuf := rfl
@[simp] theorem setBytes_done (s : State) (x : Vector Byte 4) : (s.setBytes x).done = s.done := rfl
@[simp] theorem setBytes_slot (s : State) (x : Vector Byte 4) : (s.setBytes x).slot = s.slot := rfl
@[simp] theorem setBytes_fresh (s : State) (x : Vector Byte 4) : (s.setBytes x).fresh = s.fresh := rfl
@[simp] theorem setBytes_host (s : State) (x : Vector Byte 4) : (s.setBytes x).host = s.host := rfl

/-! ### `setValue` -/

@[simp] theorem setValue_config (s : State) (x : Word) : (s.setValue x).config = s.config := rfl
@[simp] theorem setValue_op (s : State) (x : Word) : (s.setValue x).op = s.op := rfl
@[simp] theorem setValue_inLen (s : State) (x : Word) : (s.setValue x).inLen = s.inLen := rfl
@[simp] theorem setValue_phase (s : State) (x : Word) : (s.setValue x).phase = s.phase := rfl
@[simp] theorem setValue_status (s : State) (x : Word) : (s.setValue x).status = s.status := rfl
@[simp] theorem setValue_outLen (s : State) (x : Word) : (s.setValue x).outLen = s.outLen := rfl
@[simp] theorem setValue_errIdx (s : State) (x : Word) : (s.setValue x).errIdx = s.errIdx := rfl
@[simp] theorem setValue_errChar (s : State) (x : Word) : (s.setValue x).errChar = s.errChar := rfl
@[simp] theorem setValue_value (s : State) (x : Word) : (s.setValue x).value = x := rfl
@[simp] theorem setValue_b (s : State) (x : Word) : (s.setValue x).b = s.b := rfl
@[simp] theorem setValue_c (s : State) (x : Word) : (s.setValue x).c = s.c := rfl
@[simp] theorem setValue_d (s : State) (x : Word) : (s.setValue x).d = s.d := rfl
@[simp] theorem setValue_gi (s : State) (x : Word) : (s.setValue x).gi = s.gi := rfl
@[simp] theorem setValue_pad (s : State) (x : Word) : (s.setValue x).pad = s.pad := rfl
@[simp] theorem setValue_ng (s : State) (x : Word) : (s.setValue x).ng = s.ng := rfl
@[simp] theorem setValue_ibuf (s : State) (x : Word) : (s.setValue x).ibuf = s.ibuf := rfl
@[simp] theorem setValue_obuf (s : State) (x : Word) : (s.setValue x).obuf = s.obuf := rfl
@[simp] theorem setValue_done (s : State) (x : Word) : (s.setValue x).done = s.done := rfl
@[simp] theorem setValue_slot (s : State) (x : Word) : (s.setValue x).slot = s.slot := rfl
@[simp] theorem setValue_fresh (s : State) (x : Word) : (s.setValue x).fresh = s.fresh := rfl
@[simp] theorem setValue_host (s : State) (x : Word) : (s.setValue x).host = s.host := rfl

/-! ### `setDigits` -/

@[simp] theorem setDigits_config (s : State) (x : Vector Digit 5) : (s.setDigits x).config = s.config := rfl
@[simp] theorem setDigits_op (s : State) (x : Vector Digit 5) : (s.setDigits x).op = s.op := rfl
@[simp] theorem setDigits_inLen (s : State) (x : Vector Digit 5) : (s.setDigits x).inLen = s.inLen := rfl
@[simp] theorem setDigits_phase (s : State) (x : Vector Digit 5) : (s.setDigits x).phase = s.phase := rfl
@[simp] theorem setDigits_status (s : State) (x : Vector Digit 5) : (s.setDigits x).status = s.status := rfl
@[simp] theorem setDigits_outLen (s : State) (x : Vector Digit 5) : (s.setDigits x).outLen = s.outLen := rfl
@[simp] theorem setDigits_errIdx (s : State) (x : Vector Digit 5) : (s.setDigits x).errIdx = s.errIdx := rfl
@[simp] theorem setDigits_errChar (s : State) (x : Vector Digit 5) : (s.setDigits x).errChar = s.errChar := rfl
@[simp] theorem setDigits_value (s : State) (x : Vector Digit 5) : (s.setDigits x).value = s.value := rfl
@[simp] theorem setDigits_b (s : State) (x : Vector Digit 5) : (s.setDigits x).b = s.b := rfl
@[simp] theorem setDigits_c (s : State) (x : Vector Digit 5) : (s.setDigits x).c = s.c := rfl
@[simp] theorem setDigits_d (s : State) (x : Vector Digit 5) : (s.setDigits x).d = x := rfl
@[simp] theorem setDigits_gi (s : State) (x : Vector Digit 5) : (s.setDigits x).gi = s.gi := rfl
@[simp] theorem setDigits_pad (s : State) (x : Vector Digit 5) : (s.setDigits x).pad = s.pad := rfl
@[simp] theorem setDigits_ng (s : State) (x : Vector Digit 5) : (s.setDigits x).ng = s.ng := rfl
@[simp] theorem setDigits_ibuf (s : State) (x : Vector Digit 5) : (s.setDigits x).ibuf = s.ibuf := rfl
@[simp] theorem setDigits_obuf (s : State) (x : Vector Digit 5) : (s.setDigits x).obuf = s.obuf := rfl
@[simp] theorem setDigits_done (s : State) (x : Vector Digit 5) : (s.setDigits x).done = s.done := rfl
@[simp] theorem setDigits_slot (s : State) (x : Vector Digit 5) : (s.setDigits x).slot = s.slot := rfl
@[simp] theorem setDigits_fresh (s : State) (x : Vector Digit 5) : (s.setDigits x).fresh = s.fresh := rfl
@[simp] theorem setDigits_host (s : State) (x : Vector Digit 5) : (s.setDigits x).host = s.host := rfl

/-! ### `setChars` -/

@[simp] theorem setChars_config (s : State) (x : Vector Byte 5) : (s.setChars x).config = s.config := rfl
@[simp] theorem setChars_op (s : State) (x : Vector Byte 5) : (s.setChars x).op = s.op := rfl
@[simp] theorem setChars_inLen (s : State) (x : Vector Byte 5) : (s.setChars x).inLen = s.inLen := rfl
@[simp] theorem setChars_phase (s : State) (x : Vector Byte 5) : (s.setChars x).phase = s.phase := rfl
@[simp] theorem setChars_status (s : State) (x : Vector Byte 5) : (s.setChars x).status = s.status := rfl
@[simp] theorem setChars_outLen (s : State) (x : Vector Byte 5) : (s.setChars x).outLen = s.outLen := rfl
@[simp] theorem setChars_errIdx (s : State) (x : Vector Byte 5) : (s.setChars x).errIdx = s.errIdx := rfl
@[simp] theorem setChars_errChar (s : State) (x : Vector Byte 5) : (s.setChars x).errChar = s.errChar := rfl
@[simp] theorem setChars_value (s : State) (x : Vector Byte 5) : (s.setChars x).value = s.value := rfl
@[simp] theorem setChars_b (s : State) (x : Vector Byte 5) : (s.setChars x).b = s.b := rfl
@[simp] theorem setChars_c (s : State) (x : Vector Byte 5) : (s.setChars x).c = x := rfl
@[simp] theorem setChars_d (s : State) (x : Vector Byte 5) : (s.setChars x).d = s.d := rfl
@[simp] theorem setChars_gi (s : State) (x : Vector Byte 5) : (s.setChars x).gi = s.gi := rfl
@[simp] theorem setChars_pad (s : State) (x : Vector Byte 5) : (s.setChars x).pad = s.pad := rfl
@[simp] theorem setChars_ng (s : State) (x : Vector Byte 5) : (s.setChars x).ng = s.ng := rfl
@[simp] theorem setChars_ibuf (s : State) (x : Vector Byte 5) : (s.setChars x).ibuf = s.ibuf := rfl
@[simp] theorem setChars_obuf (s : State) (x : Vector Byte 5) : (s.setChars x).obuf = s.obuf := rfl
@[simp] theorem setChars_done (s : State) (x : Vector Byte 5) : (s.setChars x).done = s.done := rfl
@[simp] theorem setChars_slot (s : State) (x : Vector Byte 5) : (s.setChars x).slot = s.slot := rfl
@[simp] theorem setChars_fresh (s : State) (x : Vector Byte 5) : (s.setChars x).fresh = s.fresh := rfl
@[simp] theorem setChars_host (s : State) (x : Vector Byte 5) : (s.setChars x).host = s.host := rfl

/-! ### `storeObuf` -/

@[simp] theorem storeObuf_config (s : State) (i : Nat) (xs : List Byte) : (s.storeObuf i xs).config = s.config := rfl
@[simp] theorem storeObuf_op (s : State) (i : Nat) (xs : List Byte) : (s.storeObuf i xs).op = s.op := rfl
@[simp] theorem storeObuf_inLen (s : State) (i : Nat) (xs : List Byte) : (s.storeObuf i xs).inLen = s.inLen := rfl
@[simp] theorem storeObuf_phase (s : State) (i : Nat) (xs : List Byte) : (s.storeObuf i xs).phase = s.phase := rfl
@[simp] theorem storeObuf_status (s : State) (i : Nat) (xs : List Byte) : (s.storeObuf i xs).status = s.status := rfl
@[simp] theorem storeObuf_outLen (s : State) (i : Nat) (xs : List Byte) : (s.storeObuf i xs).outLen = s.outLen := rfl
@[simp] theorem storeObuf_errIdx (s : State) (i : Nat) (xs : List Byte) : (s.storeObuf i xs).errIdx = s.errIdx := rfl
@[simp] theorem storeObuf_errChar (s : State) (i : Nat) (xs : List Byte) : (s.storeObuf i xs).errChar = s.errChar := rfl
@[simp] theorem storeObuf_value (s : State) (i : Nat) (xs : List Byte) : (s.storeObuf i xs).value = s.value := rfl
@[simp] theorem storeObuf_b (s : State) (i : Nat) (xs : List Byte) : (s.storeObuf i xs).b = s.b := rfl
@[simp] theorem storeObuf_c (s : State) (i : Nat) (xs : List Byte) : (s.storeObuf i xs).c = s.c := rfl
@[simp] theorem storeObuf_d (s : State) (i : Nat) (xs : List Byte) : (s.storeObuf i xs).d = s.d := rfl
@[simp] theorem storeObuf_gi (s : State) (i : Nat) (xs : List Byte) : (s.storeObuf i xs).gi = s.gi := rfl
@[simp] theorem storeObuf_pad (s : State) (i : Nat) (xs : List Byte) : (s.storeObuf i xs).pad = s.pad := rfl
@[simp] theorem storeObuf_ng (s : State) (i : Nat) (xs : List Byte) : (s.storeObuf i xs).ng = s.ng := rfl
@[simp] theorem storeObuf_ibuf (s : State) (i : Nat) (xs : List Byte) : (s.storeObuf i xs).ibuf = s.ibuf := rfl
@[simp] theorem storeObuf_obuf (s : State) (i : Nat) (xs : List Byte) : (s.storeObuf i xs).obuf = s.obuf.writeSeq i xs := rfl
@[simp] theorem storeObuf_done (s : State) (i : Nat) (xs : List Byte) : (s.storeObuf i xs).done = s.done := rfl
@[simp] theorem storeObuf_slot (s : State) (i : Nat) (xs : List Byte) : (s.storeObuf i xs).slot = s.slot := rfl
@[simp] theorem storeObuf_fresh (s : State) (i : Nat) (xs : List Byte) : (s.storeObuf i xs).fresh = s.fresh := rfl
@[simp] theorem storeObuf_host (s : State) (i : Nat) (xs : List Byte) : (s.storeObuf i xs).host = s.host := rfl

/-! ### `begin` -/

@[simp] theorem begin_config (s : State) : s.begin.config = s.config := rfl
@[simp] theorem begin_op (s : State) : s.begin.op = s.op := rfl
@[simp] theorem begin_inLen (s : State) : s.begin.inLen = s.inLen := rfl
@[simp] theorem begin_phase (s : State) : s.begin.phase = .busy := rfl
@[simp] theorem begin_status (s : State) : s.begin.status = s.status := rfl
@[simp] theorem begin_outLen (s : State) : s.begin.outLen = s.outLen := rfl
@[simp] theorem begin_errIdx (s : State) : s.begin.errIdx = s.errIdx := rfl
@[simp] theorem begin_errChar (s : State) : s.begin.errChar = s.errChar := rfl
@[simp] theorem begin_value (s : State) : s.begin.value = s.value := rfl
@[simp] theorem begin_b (s : State) : s.begin.b = s.b := rfl
@[simp] theorem begin_c (s : State) : s.begin.c = s.c := rfl
@[simp] theorem begin_d (s : State) : s.begin.d = s.d := rfl
@[simp] theorem begin_gi (s : State) : s.begin.gi = s.gi := rfl
@[simp] theorem begin_pad (s : State) : s.begin.pad = s.pad := rfl
@[simp] theorem begin_ng (s : State) : s.begin.ng = s.ng := rfl
@[simp] theorem begin_ibuf (s : State) : s.begin.ibuf = s.ibuf := rfl
@[simp] theorem begin_obuf (s : State) : s.begin.obuf = Buffer.unspecified s.fresh := rfl
@[simp] theorem begin_done (s : State) : s.begin.done = false := rfl
@[simp] theorem begin_slot (s : State) : s.begin.slot = 0 := rfl
@[simp] theorem begin_fresh (s : State) : s.begin.fresh = s.fresh + 1 := rfl
@[simp] theorem begin_host (s : State) : s.begin.host = dropStart s.host := rfl

/-! ### `takeSymbol` -/

@[simp] theorem takeSymbol_config (x : Byte) (dg : Digit) (s : State) : (takeSymbol x dg s).config = s.config := rfl
@[simp] theorem takeSymbol_op (x : Byte) (dg : Digit) (s : State) : (takeSymbol x dg s).op = s.op := rfl
@[simp] theorem takeSymbol_inLen (x : Byte) (dg : Digit) (s : State) : (takeSymbol x dg s).inLen = s.inLen := rfl
@[simp] theorem takeSymbol_phase (x : Byte) (dg : Digit) (s : State) : (takeSymbol x dg s).phase = s.phase := rfl
@[simp] theorem takeSymbol_status (x : Byte) (dg : Digit) (s : State) : (takeSymbol x dg s).status = s.status := rfl
@[simp] theorem takeSymbol_outLen (x : Byte) (dg : Digit) (s : State) : (takeSymbol x dg s).outLen = s.outLen := rfl
@[simp] theorem takeSymbol_errIdx (x : Byte) (dg : Digit) (s : State) : (takeSymbol x dg s).errIdx = s.errIdx := rfl
@[simp] theorem takeSymbol_errChar (x : Byte) (dg : Digit) (s : State) : (takeSymbol x dg s).errChar = s.errChar := rfl
@[simp] theorem takeSymbol_value (x : Byte) (dg : Digit) (s : State) : (takeSymbol x dg s).value = s.value := rfl
@[simp] theorem takeSymbol_b (x : Byte) (dg : Digit) (s : State) : (takeSymbol x dg s).b = s.b := rfl
@[simp] theorem takeSymbol_c (x : Byte) (dg : Digit) (s : State) : (takeSymbol x dg s).c = s.c.set (takePlace s).val x := rfl
@[simp] theorem takeSymbol_d (x : Byte) (dg : Digit) (s : State) : (takeSymbol x dg s).d = s.d.set (takePlace s).val dg := rfl
@[simp] theorem takeSymbol_gi (x : Byte) (dg : Digit) (s : State) : (takeSymbol x dg s).gi = s.gi := rfl
@[simp] theorem takeSymbol_pad (x : Byte) (dg : Digit) (s : State) : (takeSymbol x dg s).pad = s.pad := rfl
@[simp] theorem takeSymbol_ng (x : Byte) (dg : Digit) (s : State) : (takeSymbol x dg s).ng = s.ng := rfl
@[simp] theorem takeSymbol_ibuf (x : Byte) (dg : Digit) (s : State) : (takeSymbol x dg s).ibuf = s.ibuf := rfl
@[simp] theorem takeSymbol_obuf (x : Byte) (dg : Digit) (s : State) : (takeSymbol x dg s).obuf = s.obuf := rfl
@[simp] theorem takeSymbol_done (x : Byte) (dg : Digit) (s : State) : (takeSymbol x dg s).done = s.done := rfl
@[simp] theorem takeSymbol_slot (x : Byte) (dg : Digit) (s : State) : (takeSymbol x dg s).slot = (takePlace s).succ := rfl
@[simp] theorem takeSymbol_fresh (x : Byte) (dg : Digit) (s : State) : (takeSymbol x dg s).fresh = s.fresh := rfl
@[simp] theorem takeSymbol_host (x : Byte) (dg : Digit) (s : State) : (takeSymbol x dg s).host = s.host := rfl

/-! ### `signalDone` -/

@[simp] theorem signalDone_config (n : Nat) (s : State) : (signalDone n s).config = s.config := rfl
@[simp] theorem signalDone_op (n : Nat) (s : State) : (signalDone n s).op = s.op := rfl
@[simp] theorem signalDone_inLen (n : Nat) (s : State) : (signalDone n s).inLen = s.inLen := rfl
@[simp] theorem signalDone_phase (n : Nat) (s : State) : (signalDone n s).phase = .idle := rfl
@[simp] theorem signalDone_status (n : Nat) (s : State) : (signalDone n s).status = .ok := rfl
@[simp] theorem signalDone_outLen (n : Nat) (s : State) : (signalDone n s).outLen = n := rfl
@[simp] theorem signalDone_errIdx (n : Nat) (s : State) : (signalDone n s).errIdx = errIdxAfter s.config s.errIdx s.fresh none := rfl
@[simp] theorem signalDone_errChar (n : Nat) (s : State) : (signalDone n s).errChar = errCharAfter s.config s.errChar s.fresh none := rfl
@[simp] theorem signalDone_value (n : Nat) (s : State) : (signalDone n s).value = s.value := rfl
@[simp] theorem signalDone_b (n : Nat) (s : State) : (signalDone n s).b = s.b := rfl
@[simp] theorem signalDone_c (n : Nat) (s : State) : (signalDone n s).c = s.c := rfl
@[simp] theorem signalDone_d (n : Nat) (s : State) : (signalDone n s).d = s.d := rfl
@[simp] theorem signalDone_gi (n : Nat) (s : State) : (signalDone n s).gi = s.gi := rfl
@[simp] theorem signalDone_pad (n : Nat) (s : State) : (signalDone n s).pad = s.pad := rfl
@[simp] theorem signalDone_ng (n : Nat) (s : State) : (signalDone n s).ng = s.ng := rfl
@[simp] theorem signalDone_ibuf (n : Nat) (s : State) : (signalDone n s).ibuf = s.ibuf := rfl
@[simp] theorem signalDone_obuf (n : Nat) (s : State) : (signalDone n s).obuf = s.obuf.truncate n s.fresh := rfl
@[simp] theorem signalDone_done (n : Nat) (s : State) : (signalDone n s).done = true := rfl
@[simp] theorem signalDone_slot (n : Nat) (s : State) : (signalDone n s).slot = s.slot := rfl
@[simp] theorem signalDone_fresh (n : Nat) (s : State) : (signalDone n s).fresh = s.fresh + 1 := rfl
@[simp] theorem signalDone_host (n : Nat) (s : State) : (signalDone n s).host = s.host := rfl

/-! ### `raiseError` -/

@[simp] theorem raiseError_config (e : Err) (s : State) : (raiseError e s).config = s.config := rfl
@[simp] theorem raiseError_op (e : Err) (s : State) : (raiseError e s).op = s.op := rfl
@[simp] theorem raiseError_inLen (e : Err) (s : State) : (raiseError e s).inLen = s.inLen := rfl
@[simp] theorem raiseError_phase (e : Err) (s : State) : (raiseError e s).phase = .idle := rfl
@[simp] theorem raiseError_status (e : Err) (s : State) : (raiseError e s).status = errStatus e := rfl
@[simp] theorem raiseError_outLen (e : Err) (s : State) : (raiseError e s).outLen = 0 := rfl
@[simp] theorem raiseError_errIdx (e : Err) (s : State) : (raiseError e s).errIdx = errIdxAfter s.config s.errIdx s.fresh (some e) := rfl
@[simp] theorem raiseError_errChar (e : Err) (s : State) : (raiseError e s).errChar = errCharAfter s.config s.errChar s.fresh (some e) := rfl
@[simp] theorem raiseError_value (e : Err) (s : State) : (raiseError e s).value = s.value := rfl
@[simp] theorem raiseError_b (e : Err) (s : State) : (raiseError e s).b = s.b := rfl
@[simp] theorem raiseError_c (e : Err) (s : State) : (raiseError e s).c = s.c := rfl
@[simp] theorem raiseError_d (e : Err) (s : State) : (raiseError e s).d = s.d := rfl
@[simp] theorem raiseError_gi (e : Err) (s : State) : (raiseError e s).gi = s.gi := rfl
@[simp] theorem raiseError_pad (e : Err) (s : State) : (raiseError e s).pad = s.pad := rfl
@[simp] theorem raiseError_ng (e : Err) (s : State) : (raiseError e s).ng = s.ng := rfl
@[simp] theorem raiseError_ibuf (e : Err) (s : State) : (raiseError e s).ibuf = s.ibuf := rfl
@[simp] theorem raiseError_obuf (e : Err) (s : State) : (raiseError e s).obuf = Buffer.unspecified s.fresh := rfl
@[simp] theorem raiseError_done (e : Err) (s : State) : (raiseError e s).done = true := rfl
@[simp] theorem raiseError_slot (e : Err) (s : State) : (raiseError e s).slot = s.slot := rfl
@[simp] theorem raiseError_fresh (e : Err) (s : State) : (raiseError e s).fresh = s.fresh + 1 := rfl
@[simp] theorem raiseError_host (e : Err) (s : State) : (raiseError e s).host = s.host := rfl

/-! ### `resetEvent` -/

@[simp] theorem resetEvent_config (s : State) : (resetEvent s).config = s.config := rfl
@[simp] theorem resetEvent_op (s : State) : (resetEvent s).op = State.reset.op := rfl
@[simp] theorem resetEvent_inLen (s : State) : (resetEvent s).inLen = State.reset.inLen := rfl
@[simp] theorem resetEvent_phase (s : State) : (resetEvent s).phase = State.reset.phase := rfl
@[simp] theorem resetEvent_status (s : State) : (resetEvent s).status = State.reset.status := rfl
@[simp] theorem resetEvent_outLen (s : State) : (resetEvent s).outLen = State.reset.outLen := rfl
@[simp] theorem resetEvent_errIdx (s : State) : (resetEvent s).errIdx = State.reset.errIdx := rfl
@[simp] theorem resetEvent_errChar (s : State) : (resetEvent s).errChar = State.reset.errChar := rfl
@[simp] theorem resetEvent_value (s : State) : (resetEvent s).value = State.reset.value := rfl
@[simp] theorem resetEvent_b (s : State) : (resetEvent s).b = State.reset.b := rfl
@[simp] theorem resetEvent_c (s : State) : (resetEvent s).c = State.reset.c := rfl
@[simp] theorem resetEvent_d (s : State) : (resetEvent s).d = State.reset.d := rfl
@[simp] theorem resetEvent_gi (s : State) : (resetEvent s).gi = State.reset.gi := rfl
@[simp] theorem resetEvent_pad (s : State) : (resetEvent s).pad = State.reset.pad := rfl
@[simp] theorem resetEvent_ng (s : State) : (resetEvent s).ng = State.reset.ng := rfl
@[simp] theorem resetEvent_ibuf (s : State) : (resetEvent s).ibuf = Buffer.unspecified s.fresh := rfl
@[simp] theorem resetEvent_obuf (s : State) : (resetEvent s).obuf = Buffer.unspecified (s.fresh + 1) := rfl
@[simp] theorem resetEvent_done (s : State) : (resetEvent s).done = State.reset.done := rfl
@[simp] theorem resetEvent_slot (s : State) : (resetEvent s).slot = State.reset.slot := rfl
@[simp] theorem resetEvent_fresh (s : State) : (resetEvent s).fresh = s.fresh + 2 := rfl
@[simp] theorem resetEvent_host (s : State) : (resetEvent s).host = s.host := rfl

end Sys2Proof.Machine
end

