-- ==== Sys2Proof/Laws/Loops.lean ====
section
/-! SUPPORT. What the shared operations of ENC and DEC do, START to DONE: one lemma per operation. -/

namespace Sys2Proof.Machine

/-- `t` differs from `s` at most in the working registers of a group, OBUF and the place in the operation. -/
structure SameOutside (s t : State) : Prop where
  config : t.config = s.config
  op : t.op = s.op
  inLen : t.inLen = s.inLen
  ibuf : t.ibuf = s.ibuf
  host : t.host = s.host
  pad : t.pad = s.pad
  ng : t.ng = s.ng
  phase : t.phase = s.phase
  done : t.done = s.done
  status : t.status = s.status
  outLen : t.outLen = s.outLen
  errIdx : t.errIdx = s.errIdx
  errChar : t.errChar = s.errChar
  fresh : t.fresh = s.fresh

theorem SameOutside.refl (s : State) : SameOutside s s := by constructor <;> rfl

theorem SameOutside.trans {s t u : State} (h : SameOutside s t) (k : SameOutside t u) : SameOutside s u := by
  obtain ⟨_, _, _, _, _, _, _, _, _, _, _, _, _, _⟩ := h
  obtain ⟨_, _, _, _, _, _, _, _, _, _, _, _, _, _⟩ := k
  constructor <;> simp_all

theorem SameOutside.input {s t : State} (h : SameOutside s t) : inputSeq t = inputSeq s := by
  simp [inputSeq, h.inLen, h.ibuf]

theorem inputSeq_length (s : State) : (inputSeq s).length = s.inLen := by simp [inputSeq, Buffer.take]

/-- An element of the input. -/
theorem inputSeq_getElem? (s : State) (i : Nat) :
    (inputSeq s)[i]? = if i < s.inLen then some (s.ibuf.read i) else none := by
  simp only [inputSeq, Buffer.take, List.getElem?_map]
  by_cases h : i < s.inLen <;> simp [h]

/-- Two runs of writes, one behind the other. -/
theorem writeSeq_append (xs ys : List Byte) (m : Buffer) (i : Nat) :
    (m.writeSeq i xs).writeSeq (i + xs.length) ys = m.writeSeq i (xs ++ ys) := by
  induction xs generalizing m i with
  | nil => rfl
  | cons x rest ih => 
    simp only [Buffer.writeSeq, List.cons_append, List.length_cons]
    rw [← ih]; congr 1; omega

/-- What is below the cut of a buffer written from 0 on. -/
theorem take_truncated (g d n : Nat) (xs : List Byte) (h : n ≤ xs.length) :
    (((Buffer.unspecified g).writeSeq 0 xs).truncate n d).take n = xs.take n := by
  apply List.ext_getElem?
  intro i
  simp only [Buffer.take, List.getElem?_map, List.getElem?_take]
  by_cases hi : i < n
  · have hr : (List.range n)[i]? = some i := by simp [hi]
    simp only [hi, if_true, hr, Option.map_some, read_truncate, lookupCell_writeSeq]
    have : (0 ≤ i ∧ i < 0 + xs.length) := by omega
    simp [show i < xs.length by omega]
  · simp [hi]

/-- At the cut and above nothing is listed. -/
theorem lookup_truncated (m : Buffer) (n d a : Nat) (h : n ≤ a) : lookupCell (m.truncate n d).cells a = none := by
  simp only [Buffer.truncate, lookupCell_filter]; rw [if_neg (by omega)]

/-- What a loop's body keeps in BUSY, the loop keeps. -/
theorem whileBusy_keeps {P : State → Prop} {body : State → State}
    (hb : ∀ s, P s → s.phase = .busy → P (body s)) (n : Nat) {s : State} (h : P s) : P (whileBusy body n s) := by
  induction n generalizing s with
  | zero => exact h
  | succ n ih =>
    rw [whileBusy]; split
    · exact ih (hb s h ‹_›)
    · exact h

/-- What the last part of an operation keeps in BUSY, it keeps. -/
theorem ifBusy_keeps {P : State → Prop} {last : State → State} {s : State}
    (hb : s.phase = .busy → P (last s)) (h : P s) : P (ifBusy last s) := by
  rw [ifBusy]; split
  · exact hb ‹_›
  · exact h

/-- No body runs in IDLE. -/
theorem whileBusy_idle (body : State → State) (n : Nat) (s : State) (h : s.phase = .idle) : whileBusy body n s
    = s := by
  cases n <;> simp [whileBusy, h]

/-! ### ENC -/

/-- ENC.LOAD on the machine is ENC.LOAD on the input. -/
theorem encLoad_eq (s : State) (k : Nat) : encLoad s k = encLoadSeq (inputSeq s) s.gi k := by
  simp only [encLoad, encLoadSeq, inputSeq_getElem?]
  by_cases h : 4 * s.gi + k < s.inLen <;> simp [h]

/-- What a group step of ENCODE leaves alone. -/
theorem encGroup_same (s : State) : SameOutside s (encGroup s) := by
  constructor <;> simp [encGroup, encFetch]

theorem encGroup_gi (s : State) : (encGroup s).gi = s.gi + 1 := by simp [encGroup, encFetch]

theorem encGroup_slot (s : State) : (encGroup s).slot = 0 := by simp [encGroup]

/-- What a group step of ENCODE stores. -/
theorem encGroup_obuf (s : State) : (encGroup s).obuf
    = s.obuf.writeSeq (5 * s.gi) (encGroupSeq (inputSeq s) s.gi) := by
  simp [encGroup, encFetch, encLoad_eq, encGroupSeq]

/-- What `n` group steps of ENCODE do. -/
theorem encLoop (n : Nat) (s : State) (hb : s.phase = .busy) :
    SameOutside s (whileBusy encGroup n s) ∧ (whileBusy encGroup n s).gi = s.gi + n ∧
      (s.slot = 0 → (whileBusy encGroup n s).slot = 0) ∧
      (whileBusy encGroup n s).obuf =
        s.obuf.writeSeq (5 * s.gi) ((List.range n).flatMap (fun j => encGroupSeq (inputSeq s) (s.gi + j))) := by
  induction n generalizing s with
  | zero => exact ⟨SameOutside.refl s, rfl, id, rfl⟩
  | succ n ih =>
    have hs := encGroup_same s
    have hp : (encGroup s).phase = .busy := by rw [hs.phase, hb]
    obtain ⟨h1, h2, h3, h4⟩ := ih (encGroup s) hp
    simp only [whileBusy, hb, if_true]
    refine ⟨hs.trans h1, by rw [h2, encGroup_gi]; omega, fun _ => h3 (encGroup_slot s), ?_⟩
    rw [h4, encGroup_obuf, encGroup_gi, hs.input]
    have : 5 * (s.gi + 1) = 5 * s.gi + (encGroupSeq (inputSeq s) s.gi).length := by rw [encGroupSeq_length]; omega
    rw [this, writeSeq_append, Nat.add_comm n 1, flatMap_range_add]
    simp [Nat.add_assoc]

/-- The state of an ENCODE just before DONE. -/
theorem encBefore (s : State) :
    let u := whileBusy encGroup (encStart s).ng (encStart s)
    SameOutside (encStart s) u ∧ u.gi = u.ng ∧ u.slot = 0 ∧
      u.obuf = (Buffer.unspecified s.fresh).writeSeq 0 ((List.range (encGroupCount s.inLen)).flatMap (encGroupSeq (inputSeq s))) := by
  intro u
  obtain ⟨h1, h2, h3, h4⟩ := encLoop (encStart s).ng (encStart s) rfl
  have hng : u.ng = (encStart s).ng := h1.ng
  refine ⟨h1, ?_, h3 rfl, ?_⟩
  · rw [hng]; show (whileBusy encGroup (encStart s).ng (encStart s)).gi = _; rw [h2]; show 0 + _ = _; omega
  · show (whileBusy encGroup (encStart s).ng (encStart s)).obuf = _
    rw [h4]
    have e1 : (encStart s).gi = 0 := rfl
    have e2 : inputSeq (encStart s) = inputSeq s := rfl
    have e3 : (encStart s).obuf = Buffer.unspecified s.fresh := rfl
    have e4 : (encStart s).ng = encGroupCount s.inLen := rfl
    rw [e1, e2, e3, e4]; simp

theorem encRun_eq (s : State) : encRun s = encDone (whileBusy encGroup (encStart s).ng (encStart s)) := by
  have h := (encBefore s).1.phase
  simp only [encRun, ifBusy]
  rw [if_pos (by rw [h]; rfl)]

/-- ENCODE of a core ready for START. -/
theorem exec_encode {s : State} (h : Ready s) :
    exec .cmdEncode s = .next (match s.config.pace with | .collapsed => encRun s | .stepwise => encStart s) := by
  obtain ⟨h1, h2⟩ := h
  rw [show exec .cmdEncode s = execEncode s from rfl]
  rw [execEncode, acceptStart, if_neg (by rw [h1]; decide), if_pos h2]
  try (cases s.config.pace <;> rfl)

/-! ### DEC -/

/-- DEC.LOAD on the machine is DEC.LOAD on the input. -/
theorem decLoad_eq (s : State) : decLoad s = decLoadSeq (inputSeq s) s.gi s.slot.val := by
  simp only [decLoad, decLoadSeq, charIndex, inputSeq_getElem?]
  by_cases h : 5 * s.gi + s.slot.val < s.inLen <;> simp [h]

theorem takePlace_of_lt {s : State} {k : Nat} (h : s.slot.val = k) (hk : k < 5) : (takePlace s).val = k := by
  simp [takePlace, h]; omega

theorem takeSymbol_same (x : Byte) (dg : Digit) (s : State) : SameOutside s (takeSymbol x dg s) ∧
    (takeSymbol x dg s).gi = s.gi ∧ (takeSymbol x dg s).obuf = s.obuf := by
  refine ⟨?_, takeSymbol_gi .., takeSymbol_obuf ..⟩
  constructor <;> simp

/-- Every character of the input is a symbol. -/
def ValidIn (s : State) : Prop := ∀ x ∈ inputSeq s, (rev x).isSome = true

theorem SameOutside.valid {s t : State} (h : SameOutside s t) (hv : ValidIn s) : ValidIn t := by
  rw [ValidIn, h.input]; exact hv

/-- A look-up in a text of symbols takes the symbol. -/
theorem decLookup_valid {s : State} (hv : ValidIn s) :
    decLookup s = takeSymbol (decLoad s) (digitAt (inputSeq s) s.gi s.slot.val) s := by
  have := rev_decLoadSeq hv s.gi s.slot.val
  rw [← decLoad_eq] at this
  rw [decLookup, this]

/-- What `n` look-ups of one group do. -/
theorem lookups (n : Nat) (s : State) (hb : s.phase = .busy) (hv : ValidIn s) (hn : s.slot.val + n ≤ 5) :
    let t := whileBusy decLookup n s
    SameOutside s t ∧ t.gi = s.gi ∧ t.obuf = s.obuf ∧ t.value = s.value ∧ t.b = s.b ∧ t.slot.val = s.slot.val + n ∧
      ∀ k (hk : k < 5), t.c[k] = (if s.slot.val ≤ k ∧ k < s.slot.val + n then decLoadSeq (inputSeq s) s.gi k
          else s.c[k]) ∧
       t.d[k] = (if s.slot.val ≤ k ∧ k < s.slot.val + n then digitAt (inputSeq s) s.gi k else s.d[k]) := by
  induction n generalizing s with
  | zero =>
    refine ⟨SameOutside.refl s, rfl, rfl, rfl, rfl, rfl, fun k hk => ?_⟩
    rw [if_neg (by omega), if_neg (by omega)]
    exact ⟨rfl, rfl⟩
  | succ n ih =>
    intro t
    have ht : t = whileBusy decLookup n (decLookup s) := by simp only [t, whileBusy, hb, if_true]
    rw [decLookup_valid hv] at ht
    obtain ⟨q1, q2, q3⟩ := takeSymbol_same (decLoad s) (digitAt (inputSeq s) s.gi s.slot.val) s
    have hpl : (takePlace s).val = s.slot.val := takePlace_of_lt rfl (by omega)
    have hsl : (takeSymbol (decLoad s) (digitAt (inputSeq s) s.gi s.slot.val) s).slot.val = s.slot.val + 1 := by
      simp [hpl]
    obtain ⟨r1, r2, r3, r3b, r3c, r4, r5⟩ := ih _ (by rw [q1.phase, hb]) (q1.valid hv) (by rw [hsl]; omega)
    rw [← ht] at r1 r2 r3 r3b r3c r4 r5
    refine ⟨q1.trans r1, by rw [r2, q2], by rw [r3, q3], r3b, r3c, by rw [r4, hsl]; omega, fun k hk => ?_⟩
    obtain ⟨s1, s2⟩ := r5 k hk
    rw [s1, s2, hsl, q1.input, q2]
    have hc : (takeSymbol (decLoad s) (digitAt (inputSeq s) s.gi s.slot.val) s).c[k] = if k = s.slot.val
        then decLoadSeq (inputSeq s) s.gi k else s.c[k] := by
      simp only [takeSymbol_c, hpl, Vector.getElem_set]
      by_cases h : k = s.slot.val
      · simp [h, decLoad_eq]
      · rw [if_neg h, if_neg (fun hh => h hh.symm)]
    have hd : (takeSymbol (decLoad s) (digitAt (inputSeq s) s.gi s.slot.val) s).d[k] = if k = s.slot.val
        then digitAt (inputSeq s) s.gi k else s.d[k] := by
      simp only [takeSymbol_d, hpl, Vector.getElem_set]
      by_cases h : k = s.slot.val
      · simp [h]
      · rw [if_neg h, if_neg (fun hh => h hh.symm)]
    rw [hc, hd]
    by_cases h1 : k = s.slot.val
    · have e1 : ¬(s.slot.val + 1 ≤ k ∧ k < s.slot.val + 1 + n) := by omega
      have e2 : s.slot.val ≤ k ∧ k < s.slot.val + (n + 1) := by omega
      simp only [if_neg e1, if_pos e2, if_pos h1]
      exact ⟨trivial, trivial⟩
    · by_cases h2 : s.slot.val + 1 ≤ k ∧ k < s.slot.val + 1 + n
      · have e2 : s.slot.val ≤ k ∧ k < s.slot.val + (n + 1) := by omega
        simp only [if_pos h2, if_pos e2]
        exact ⟨trivial, trivial⟩
      · have e2 : ¬(s.slot.val ≤ k ∧ k < s.slot.val + (n + 1)) := by omega
        simp only [if_neg h2, if_neg e2, if_neg h1]
        exact ⟨trivial, trivial⟩

/-- The arithmetic of a group, as one composition of updates. -/
theorem decArith_some {s : State} {v : Word} (h : decNarrow s.config.ovfMode (decAcc s.d) = some v) :
    decArith s = (((s.setValue v).setBytes (decUnpack v)).storeObuf (4 * s.gi) (decUnpack v).toList).nextGroup := by
  rw [decArith, h]; rfl

/-- The arithmetic of a group that raises, whatever the mode. -/
theorem decArith_none {s : State} (h : decNarrow s.config.ovfMode (decAcc s.d) = none) :
    decArith s = raiseError (.valueOverflow (5 * s.gi)) s := by
  rw [decArith, h]

/-- The arithmetic of a group that does not raise. -/
theorem decArith_ok {s : State} (h : s.config.ovfMode = .wrap ∨ decAcc s.d < 2 ^ 32) :
    decArith s = ((((s.setValue (BitVec.ofNat 32 (decAcc s.d))).setBytes (decUnpack (BitVec.ofNat 32 (decAcc s.d)))).storeObuf (4 * s.gi) (decUnpack (BitVec.ofNat 32 (decAcc s.d))).toList).nextGroup) := by
  rw [decArith, decNarrow_some h]; rfl

/-- The arithmetic of a group that raises. -/
theorem decArith_fault {s : State} (h : s.config.ovfMode = .fault) (h2 : 2 ^ 32 ≤ decAcc s.d) :
    decArith s = raiseError (.valueOverflow (5 * s.gi)) s := by
  rw [decArith, h, decNarrow_none h2]

theorem decArith_ok_fields {s : State} (h : s.config.ovfMode = .wrap ∨ decAcc s.d < 2 ^ 32) :
    SameOutside s (decArith s) ∧ (decArith s).gi = s.gi + 1 ∧ (decArith s).slot = 0 ∧ (decArith s).obuf
        = s.obuf.writeSeq (4 * s.gi) (decUnpack (BitVec.ofNat 32 (decAcc s.d))).toList := by
  rw [decArith_ok h]
  refine ⟨?_, by simp, by simp, by simp⟩
  constructor <;> simp

/-- A group step of DECODE comes to its arithmetic with the digits of the group. -/
theorem decGroup_valid {s : State} (hb : s.phase = .busy) (hv : ValidIn s) (h0 : s.slot = 0) :
    ∃ u, SameOutside s u ∧ u.gi = s.gi ∧ u.obuf = s.obuf ∧ u.d = groupDigits (inputSeq s) s.gi ∧ decGroup s
        = decArith u := by
  have hs0 : s.slot.val = 0 := by rw [h0]; rfl
  have := lookups 5 s hb hv (by omega)
  obtain ⟨h1, h2, h3, _, _, h4, h5⟩ := this
  refine ⟨_, h1, h2, h3, ?_, ?_⟩
  · ext k hk
    rw [(h5 k hk).2, if_pos (by omega)]
    have : k = 0 ∨ k = 1 ∨ k = 2 ∨ k = 3 ∨ k = 4 := by omega
    rcases this with rfl | rfl | rfl | rfl | rfl <;> rfl
  · rw [decGroup, ifBusy, if_pos (by rw [h1.phase, hb])]

/-- What a group step of DECODE does where it does not raise. -/
theorem decGroup_ok {s : State} (hb : s.phase = .busy) (hv : ValidIn s) (h0 : s.slot = 0)
    (h : s.config.ovfMode = .wrap ∨ groupValue (inputSeq s) s.gi < 2 ^ 32) :
    SameOutside s (decGroup s) ∧ (decGroup s).gi = s.gi + 1 ∧ (decGroup s).slot = 0 ∧
      (decGroup s).obuf = s.obuf.writeSeq (4 * s.gi) (groupBytes (inputSeq s) s.gi) := by
  obtain ⟨u, u1, u2, u3, u4, u5⟩ := decGroup_valid hb hv h0
  have h' : u.config.ovfMode = .wrap ∨ decAcc u.d < 2 ^ 32 := by rw [u1.1, u4]; exact h
  obtain ⟨v1, v2, v3, v4⟩ := decArith_ok_fields h'
  rw [u5]
  exact ⟨u1.trans v1, by rw [v2, u2], v3, by rw [v4, u3, u2, u4]; rfl⟩

/-- What `n` group steps of DECODE do where none raises. -/
theorem decLoop (n : Nat) (s : State) (hb : s.phase = .busy) (hv : ValidIn s) (h0 : s.slot = 0)
    (h : s.config.ovfMode = .wrap ∨ ∀ j, j < n → groupValue (inputSeq s) (s.gi + j) < 2 ^ 32) :
    SameOutside s (whileBusy decGroup n s) ∧ (whileBusy decGroup n s).gi = s.gi + n ∧
      (whileBusy decGroup n s).slot = 0 ∧
      (whileBusy decGroup n s).obuf =
        s.obuf.writeSeq (4 * s.gi) ((List.range n).flatMap (fun j => groupBytes (inputSeq s) (s.gi + j))) := by
  induction n generalizing s with
  | zero => exact ⟨SameOutside.refl s, rfl, h0, rfl⟩
  | succ n ih =>
    obtain ⟨hs, hgi, hsl, hob⟩ := decGroup_ok hb hv h0 (h.imp id fun h => h 0 (by omega))
    have hp : (decGroup s).phase = .busy := by rw [hs.phase, hb]
    obtain ⟨h1, h2, h3, h4⟩ := ih (decGroup s) hp (hs.valid hv) hsl (by
      rw [hs.config, hs.input, hgi]
      refine h.imp id fun h j hj => ?_
      rw [Nat.add_assoc, Nat.add_comm 1 j]
      exact h (j + 1) (by omega))
    simp only [whileBusy, hb, if_true]
    refine ⟨hs.trans h1, by rw [h2, hgi]; omega, h3, ?_⟩
    rw [h4, hob, hgi, hs.input]
    have : 4 * (s.gi + 1) = 4 * s.gi + (groupBytes (inputSeq s) s.gi).length := by rw [groupBytes_length]; omega
    rw [this, writeSeq_append, Nat.add_comm n 1, flatMap_range_add]
    simp [Nat.add_assoc]

/-- The first group that raises ends the loop. -/
theorem decLoop_overflow (n j : Nat) (s : State) (hb : s.phase = .busy) (hv : ValidIn s) (h0 : s.slot = 0)
    (hm : s.config.ovfMode = .fault) (hj : j < n) (ho : 2 ^ 32 ≤ groupValue (inputSeq s) (s.gi + j))
    (h : ∀ i, i < j → groupValue (inputSeq s) (s.gi + i) < 2 ^ 32) :
    ∃ u, SameOutside s u ∧ u.gi = s.gi + j ∧ whileBusy decGroup n s
        = raiseError (.valueOverflow (5 * (s.gi + j))) u := by
  induction n generalizing s j with
  | zero => omega
  | succ n ih =>
    simp only [whileBusy, hb, if_true]
    cases j with
    | zero =>
      obtain ⟨u, u1, u2, u3, u4, u5⟩ := decGroup_valid hb hv h0
      refine ⟨u, u1, u2, ?_⟩
      have : decGroup s = raiseError (.valueOverflow (5 * (s.gi + 0))) u := by
        rw [u5, decArith_fault (by rw [u1.1, hm]) (by rw [u4]; exact ho), u2]; rfl
      rw [this, whileBusy_idle _ _ _ rfl]
    | succ j =>
      obtain ⟨hs, hgi, hsl, hob⟩ := decGroup_ok hb hv h0 (.inr (h 0 (by omega)))
      obtain ⟨u, u1, u2, u3⟩ := ih j (decGroup s) (by rw [hs.phase, hb]) (hs.valid hv) hsl (by rw [hs.1,
          hm]) (by omega)
        (by rw [hs.input, hgi]; rw [Nat.add_assoc, Nat.add_comm 1 j]; exact ho)
        (fun i hi => by rw [hs.input, hgi, Nat.add_assoc, Nat.add_comm 1 i]; exact h (i + 1) (by omega))
      refine ⟨u, hs.trans u1, by rw [u2, hgi]; omega, ?_⟩
      rw [u3, hgi]; congr 2; omega

/-- START of DECODE where both checks pass. -/
theorem decStart_ok {s : State} (hl : s.inLen % 5 ≠ 1) (hv : ValidIn s) :
    decStart s = (s.begin.setSizes (decPad s.inLen) (decGroupCount s.inLen)).firstGroup := by
  have h2 : firstInvalid (inputSeq s) 0 = none := firstInvalid_none.mpr hv
  have h2' : firstInvalid (inputSeq (s.begin.setSizes (decPad s.inLen) (decGroupCount s.inLen))) 0 = none := h2
  simp [decStart, decLengthBad, hl, h2']

/-- START of DECODE with a malformed length. -/
theorem decStart_malformed {s : State} (hl : s.inLen % 5 = 1) :
    decStart s = raiseError (.malformedLength s.inLen) s.begin := by
  simp [decStart, decLengthBad, hl]

/-- START of DECODE with an invalid character. -/
theorem decStart_invalid {s : State} (hl : s.inLen % 5 ≠ 1) {i : Nat} {x : Byte} (h : firstInvalid (inputSeq s) 0
    = some (i, x)) :
    decStart s = raiseError (.invalidCharacter i x) (s.begin.setSizes (decPad s.inLen) (decGroupCount s.inLen)) := by
  have h2' : firstInvalid (inputSeq (s.begin.setSizes (decPad s.inLen) (decGroupCount s.inLen))) 0 = some (i, x) := h
  simp [decStart, decLengthBad, hl, h2']

/-- DECODE of a core ready for START. -/
theorem exec_decode {s : State} (h : Ready s) :
    exec .cmdDecode s = .next (match s.config.pace with | .collapsed => decRun s | .stepwise => decStart s) := by
  obtain ⟨h1, h2⟩ := h
  rw [show exec .cmdDecode s = execDecode s from rfl]
  rw [execDecode, acceptStart, if_neg (by rw [h1]; decide), if_pos h2]
  try (cases s.config.pace <;> rfl)

end Sys2Proof.Machine
end

