-- ==== Sys2Proof/Laws/PerInstr.lean ====
section
/-! SUPPORT. Statements made per instruction. `Coding`: the instruction is one byte, no command's byte is a
symbol's, and the byte carries the digit of the instruction's row. -/

namespace Sys2Proof.Laws.Coding

open Sys2Proof.Machine

/-- An instruction's byte decodes to it alone, and MAP reads in that byte the digit of the row (R12, R60). -/
def Statement (i : Instr) : Prop :=
  i.wf = true ∧ decode (encode i) = .ok (i, []) ∧ rev (encodeByte i) = i.digit?

theorem cmdEncode : Statement .cmdEncode := ⟨rfl, rfl, rfl⟩
theorem cmdDecode : Statement .cmdDecode := ⟨rfl, rfl, rfl⟩
theorem sym0 : Statement .sym0 := ⟨rfl, rfl, rfl⟩
theorem sym1 : Statement .sym1 := ⟨rfl, rfl, rfl⟩
theorem sym2 : Statement .sym2 := ⟨rfl, rfl, rfl⟩
theorem sym3 : Statement .sym3 := ⟨rfl, rfl, rfl⟩
theorem sym4 : Statement .sym4 := ⟨rfl, rfl, rfl⟩
theorem sym5 : Statement .sym5 := ⟨rfl, rfl, rfl⟩
theorem sym6 : Statement .sym6 := ⟨rfl, rfl, rfl⟩
theorem sym7 : Statement .sym7 := ⟨rfl, rfl, rfl⟩
theorem sym8 : Statement .sym8 := ⟨rfl, rfl, rfl⟩
theorem sym9 : Statement .sym9 := ⟨rfl, rfl, rfl⟩
theorem sym10 : Statement .sym10 := ⟨rfl, rfl, rfl⟩
theorem sym11 : Statement .sym11 := ⟨rfl, rfl, rfl⟩
theorem sym12 : Statement .sym12 := ⟨rfl, rfl, rfl⟩
theorem sym13 : Statement .sym13 := ⟨rfl, rfl, rfl⟩
theorem sym14 : Statement .sym14 := ⟨rfl, rfl, rfl⟩
theorem sym15 : Statement .sym15 := ⟨rfl, rfl, rfl⟩
theorem sym16 : Statement .sym16 := ⟨rfl, rfl, rfl⟩
theorem sym17 : Statement .sym17 := ⟨rfl, rfl, rfl⟩
theorem sym18 : Statement .sym18 := ⟨rfl, rfl, rfl⟩
theorem sym19 : Statement .sym19 := ⟨rfl, rfl, rfl⟩
theorem sym20 : Statement .sym20 := ⟨rfl, rfl, rfl⟩
theorem sym21 : Statement .sym21 := ⟨rfl, rfl, rfl⟩
theorem sym22 : Statement .sym22 := ⟨rfl, rfl, rfl⟩
theorem sym23 : Statement .sym23 := ⟨rfl, rfl, rfl⟩
theorem sym24 : Statement .sym24 := ⟨rfl, rfl, rfl⟩
theorem sym25 : Statement .sym25 := ⟨rfl, rfl, rfl⟩
theorem sym26 : Statement .sym26 := ⟨rfl, rfl, rfl⟩
theorem sym27 : Statement .sym27 := ⟨rfl, rfl, rfl⟩
theorem sym28 : Statement .sym28 := ⟨rfl, rfl, rfl⟩
theorem sym29 : Statement .sym29 := ⟨rfl, rfl, rfl⟩
theorem sym30 : Statement .sym30 := ⟨rfl, rfl, rfl⟩
theorem sym31 : Statement .sym31 := ⟨rfl, rfl, rfl⟩
theorem sym32 : Statement .sym32 := ⟨rfl, rfl, rfl⟩
theorem sym33 : Statement .sym33 := ⟨rfl, rfl, rfl⟩
theorem sym34 : Statement .sym34 := ⟨rfl, rfl, rfl⟩
theorem sym35 : Statement .sym35 := ⟨rfl, rfl, rfl⟩
theorem sym36 : Statement .sym36 := ⟨rfl, rfl, rfl⟩
theorem sym37 : Statement .sym37 := ⟨rfl, rfl, rfl⟩
theorem sym38 : Statement .sym38 := ⟨rfl, rfl, rfl⟩
theorem sym39 : Statement .sym39 := ⟨rfl, rfl, rfl⟩
theorem sym40 : Statement .sym40 := ⟨rfl, rfl, rfl⟩
theorem sym41 : Statement .sym41 := ⟨rfl, rfl, rfl⟩
theorem sym42 : Statement .sym42 := ⟨rfl, rfl, rfl⟩
theorem sym43 : Statement .sym43 := ⟨rfl, rfl, rfl⟩
theorem sym44 : Statement .sym44 := ⟨rfl, rfl, rfl⟩
theorem sym45 : Statement .sym45 := ⟨rfl, rfl, rfl⟩
theorem sym46 : Statement .sym46 := ⟨rfl, rfl, rfl⟩
theorem sym47 : Statement .sym47 := ⟨rfl, rfl, rfl⟩
theorem sym48 : Statement .sym48 := ⟨rfl, rfl, rfl⟩
theorem sym49 : Statement .sym49 := ⟨rfl, rfl, rfl⟩
theorem sym50 : Statement .sym50 := ⟨rfl, rfl, rfl⟩
theorem sym51 : Statement .sym51 := ⟨rfl, rfl, rfl⟩
theorem sym52 : Statement .sym52 := ⟨rfl, rfl, rfl⟩
theorem sym53 : Statement .sym53 := ⟨rfl, rfl, rfl⟩
theorem sym54 : Statement .sym54 := ⟨rfl, rfl, rfl⟩
theorem sym55 : Statement .sym55 := ⟨rfl, rfl, rfl⟩
theorem sym56 : Statement .sym56 := ⟨rfl, rfl, rfl⟩
theorem sym57 : Statement .sym57 := ⟨rfl, rfl, rfl⟩
theorem sym58 : Statement .sym58 := ⟨rfl, rfl, rfl⟩
theorem sym59 : Statement .sym59 := ⟨rfl, rfl, rfl⟩
theorem sym60 : Statement .sym60 := ⟨rfl, rfl, rfl⟩
theorem sym61 : Statement .sym61 := ⟨rfl, rfl, rfl⟩
theorem sym62 : Statement .sym62 := ⟨rfl, rfl, rfl⟩
theorem sym63 : Statement .sym63 := ⟨rfl, rfl, rfl⟩
theorem sym64 : Statement .sym64 := ⟨rfl, rfl, rfl⟩
theorem sym65 : Statement .sym65 := ⟨rfl, rfl, rfl⟩
theorem sym66 : Statement .sym66 := ⟨rfl, rfl, rfl⟩
theorem sym67 : Statement .sym67 := ⟨rfl, rfl, rfl⟩
theorem sym68 : Statement .sym68 := ⟨rfl, rfl, rfl⟩
theorem sym69 : Statement .sym69 := ⟨rfl, rfl, rfl⟩
theorem sym70 : Statement .sym70 := ⟨rfl, rfl, rfl⟩
theorem sym71 : Statement .sym71 := ⟨rfl, rfl, rfl⟩
theorem sym72 : Statement .sym72 := ⟨rfl, rfl, rfl⟩
theorem sym73 : Statement .sym73 := ⟨rfl, rfl, rfl⟩
theorem sym74 : Statement .sym74 := ⟨rfl, rfl, rfl⟩
theorem sym75 : Statement .sym75 := ⟨rfl, rfl, rfl⟩
theorem sym76 : Statement .sym76 := ⟨rfl, rfl, rfl⟩
theorem sym77 : Statement .sym77 := ⟨rfl, rfl, rfl⟩
theorem sym78 : Statement .sym78 := ⟨rfl, rfl, rfl⟩
theorem sym79 : Statement .sym79 := ⟨rfl, rfl, rfl⟩
theorem sym80 : Statement .sym80 := ⟨rfl, rfl, rfl⟩
theorem sym81 : Statement .sym81 := ⟨rfl, rfl, rfl⟩
theorem sym82 : Statement .sym82 := ⟨rfl, rfl, rfl⟩
theorem sym83 : Statement .sym83 := ⟨rfl, rfl, rfl⟩
theorem sym84 : Statement .sym84 := ⟨rfl, rfl, rfl⟩

end Sys2Proof.Laws.Coding
end

