-- ==== Sys2Proof/Laws/Steps.lean ====
section
/-! SUPPORT. What one step can do, said once: every case of `step` with its guard. -/

namespace Sys2Proof.Machine

/-- Decoding a code, MAP.REV and MAP.FWD agree; as a check over the 256 codes. -/
def decodeSymAgrees (x : Byte) : Bool :=
  match decodeSym x with
  | .ok i =>
    match i.digit? with
    | some dg => decide (rev x = some dg ∧ fwd dg = x)
    | none => false
  | .error _ => decide (rev x = none)

theorem decodeSymAgrees_all : ∀ x : Byte, decodeSymAgrees x = true := by decide

/-- A code that decodes is a symbol, and executing it takes the symbol. -/
theorem exec_decodeSym {x : Byte} {i : Instr} (h : decodeSym x = .ok i) (s : State) :
    ∃ dg : Digit, rev x = some dg ∧ exec i s = .next (takeSymbol x dg s) := by
  have hx := decodeSymAgrees_all x
  rw [decodeSymAgrees, h] at hx
  cases hd : i.digit? with
  | none => simp [hd] at hx
  | some dg =>
    simp only [hd, decide_eq_true_eq] at hx
    refine ⟨dg, hx.1, ?_⟩
    rw [← hx.2]
    cases i <;> simp only [Instr.digit?, Option.some.injEq, reduceCtorEq] at hd <;> subst hd <;> rfl

/-- A code that does not decode is no symbol. -/
theorem rev_of_decodeSym_error {x : Byte} {e : DecodeError} (h : decodeSym x = .error e) : rev x = none := by
  have hx := decodeSymAgrees_all x
  rw [decodeSymAgrees, h] at hx
  exact of_decide_eq_true hx

/-- A look-up of DECODE is one step, whether the character is a symbol or not. -/
theorem decBusy_lookup {s : State} (h : s.slot ≠ 5) : decBusy s = .next (decLookup s) := by
  rw [decBusy, if_neg h, fetchSym, decLookup]
  cases hd : decodeSym (decLoad s) with
  | ok i =>
    obtain ⟨dg, hr, he⟩ := exec_decodeSym hd s
    simp only [hr, he]
  | error e => simp only [rev_of_decodeSym_error hd]

theorem decBusy_arith {s : State} (h : s.slot = 5) : decBusy s = .next (decArith s) := by
  rw [decBusy, if_pos h]

/-- The state after the core's move in BUSY. -/
def busyNext (s : State) : State :=
  if s.op = 0#1 then (if s.gi < s.ng then encGroup s else encDone s)
  else if s.gi < s.ng then (if s.slot = 5 then decArith s else decLookup s)
  else decDone s

/-- The core's move in BUSY always answers. -/
theorem busyStep_eq (s : State) : busyStep s = .next (busyNext s) := by
  rw [busyStep, busyNext]
  split
  · split <;> rfl
  · split
    · split
      · exact decBusy_arith ‹_›
      · exact decBusy_lookup ‹_›
    · rfl

/-- The state after a START that is accepted. -/
def startNext (s : State) : State :=
  if s.op = 0#1 then (match s.config.pace with | .collapsed => encRun s | .stepwise => encStart s)
  else match s.config.pace with | .collapsed => decRun s | .stepwise => decStart s

theorem exec_fetchCmd {s : State} (h : Ready s) : exec (fetchCmd s) s = .next (startNext s) := by
  rw [fetchCmd, decodeCmd, startNext]
  split
  · exact exec_encode h
  · exact exec_decode h

/-- A START answers a next state only where the core is ready. -/
theorem ready_of_exec {s t : State} (h : exec (fetchCmd s) s = .next t) : Ready s := by
  have key : ∀ run, acceptStart s run = .next t → Ready s := by
    intro run hr
    rw [acceptStart] at hr
    split at hr
    · cases hr
    · split at hr
      · rename_i h1 h2
        exact ⟨by cases hp : s.phase <;> simp_all, h2⟩
      · cases hr
  rw [fetchCmd, decodeCmd] at h
  split at h
  · rw [show exec .cmdEncode s = execEncode s from rfl, execEncode] at h
    exact key _ h
  · rw [show exec .cmdDecode s = execDecode s from rfl, execDecode] at h
    exact key _ h

/-- What one step can do. -/
inductive StepTo (s : State) : State → Prop where
  /-- IDLE, and no move of the host. -/
  | idle : s.phase = .idle → s.host = [] → StepTo s s
  /-- IDLE, and the host waits. -/
  | await (rest : List HostMove) : s.phase = .idle → s.host = .await :: rest → StepTo s { s with host := rest }
  /-- The core's move in BUSY. -/
  | busy : s.phase = .busy → (s.host = [] ∨ ∃ rest, s.host = .await :: rest) → StepTo s (busyNext s)
  /-- START. -/
  | start (rest : List HostMove) : s.host = .start :: rest → Ready s → StepTo s (startNext s)
  /-- The reset event. -/
  | reset (rest : List HostMove) : s.host = .reset :: rest → StepTo s (resetEvent { s with host := rest })
  /-- A host write of OP. -/
  | writeOp (v : BitVec 1) (rest : List HostMove) : s.phase = .idle → s.host = .writeOp v :: rest →
      StepTo s { s with op := v, host := rest }
  /-- A host write of IN_LEN. -/
  | writeLen (n : Nat) (rest : List HostMove) : s.phase = .idle → s.host = .writeLen n :: rest →
      fitsLen s.config.lenBits n = true → StepTo s { s with inLen := n, host := rest }
  /-- A host write of IBUF. -/
  | writeIbuf (i : Nat) (v : Byte) (rest : List HostMove) : s.phase = .idle → s.host = .writeIbuf i v :: rest →
      hasElement s.config.maxLen i = true → StepTo s { s with ibuf := s.ibuf.write i v, host := rest }

/-- A step that answers a next state answers one of these. -/
theorem stepTo_of_step {s t : State} (h : step s = .next t) : StepTo s t := by
  rw [step, oneMove] at h
  cases hh : s.host with
  | nil =>
    rw [hh] at h
    cases hp : s.phase with
    | idle =>
      simp only [coreMove, hp] at h
      cases h; exact .idle hp hh
    | busy =>
      simp only [coreMove, hp, busyStep_eq] at h
      cases h; exact .busy hp (.inl hh)
  | cons m rest =>
    rw [hh] at h
    cases m with
    | await =>
      cases hp : s.phase with
      | idle =>
        simp only [coreMove, hp] at h
        cases h
        have := StepTo.await rest hp hh
        rwa [hp] at this
      | busy =>
        simp only [coreMove, hp, busyStep_eq] at h
        cases h; exact .busy hp (.inr ⟨rest, hh⟩)
    | start =>
      have hr := ready_of_exec h
      rw [exec_fetchCmd hr] at h
      cases h; exact .start rest hh hr
    | reset => cases h; exact .reset rest hh
    | writeOp v =>
      simp only [hostWriteOp, whenIdle] at h
      split at h
      · cases h; exact .writeOp v rest ‹_› hh
      · cases h
    | writeLen n =>
      simp only [hostWriteLen, whenIdle] at h
      split at h
      · split at h
        · cases h; exact .writeLen n rest ‹_› hh ‹_›
        · cases h
      · cases h
    | writeIbuf i v =>
      simp only [hostWriteIbuf, whenIdle] at h
      split at h
      · split at h
        · cases h; exact .writeIbuf i v rest ‹_› hh ‹_›
        · cases h
      · cases h

/-- And each of these is what the step answers. -/
theorem step_of_stepTo {s t : State} (h : StepTo s t) : step s = .next t := by
  cases h with
  | idle hp hh => rw [step, oneMove, hh]; simp only [coreMove, hp]
  | await rest hp hh => rw [step, oneMove, hh]; simp only [coreMove, hp]
  | busy hp hh =>
    rcases hh with hh | ⟨rest, hh⟩ <;> rw [step, oneMove, hh] <;> simp only [coreMove, hp, busyStep_eq]
  | start rest hh hr => rw [step, oneMove, hh]; exact exec_fetchCmd hr
  | reset rest hh => rw [step, oneMove, hh]
  | writeOp v rest hp hh => rw [step, oneMove, hh]; simp only [hostWriteOp, whenIdle]; rw [if_pos hp]
  | writeLen n rest hp hh hf =>
    rw [step, oneMove, hh]; simp only [hostWriteLen, whenIdle]; rw [if_pos hp, if_pos hf]
  | writeIbuf i v rest hp hh hf =>
    rw [step, oneMove, hh]; simp only [hostWriteIbuf, whenIdle]; rw [if_pos hp, if_pos hf]

/-- One step, then the rest of a run. -/
theorem run_succ (k : Nat) (s t : State) (h : step s = .next t) : core.run (k + 1) s = core.run k t := by
  simp only [Host.Core.run]
  rw [show core.step s = step s from rfl, h]

end Sys2Proof.Machine
end

