-- ==== Sys2Proof/Tests/Slice0.lean ====
section
/-! SUPPORT. Tests of the model: expected values are those of spec/95_test_vectors.md and of the rules named, never
the model's own. The witnesses `test_witness_<Name>` show, for each obligation with hypotheses, concrete states and
operands that meet them all. -/

namespace Sys2Proof.Tests

open Machine

/-! ### Helpers -/

/-- A build whose LEN_BITS is the least width: 5 bits for `MAX_LEN` 17. -/
def build (maxLen : Option Nat) (mode : OvfMode) (info : ErrInfo) (pace : Pace) : Config :=
  ⟨maxLen, maxLen.map (fun m => Nat.log2 ((5 * m + 3) / 4) + 1), mode, info, pace⟩

/-- The build spec/92_eei_decisions.md recommends, collapsed. -/
def usual : Config := build none .wrap .indexAndChar .collapsed

/-- The same, step by step. -/
def slow : Config := build none .wrap .indexAndChar .stepwise

/-- Longest input 17, `OVF_MODE = fault`. -/
def strict : Config := build (some 17) .fault .indexAndChar .collapsed

/-- The same without `ERR_IDX` and `ERR_CHAR`. -/
def strictNoInfo : Config := build (some 17) .fault .noInfo .collapsed

/-- Longest input 17 in length registers wider than need be: LEN_BITS = 8. -/
def wide : Config := { strict with lenBits := some 8 }

/-- A core in IDLE to which the host has given `op` and the input `xs`. -/
def given (cfg : Config) (op : BitVec 1) (xs : List Byte) : State :=
  { State.reset with config := cfg, op := op, inLen := xs.length, ibuf := (Buffer.unspecified 0).writeSeq 0 xs }

/-- A core in BUSY, at group `gi` of `ng`. -/
def working (cfg : Config) (op : BitVec 1) (xs : List Byte) (pad : Fin 5) (ng gi : Nat) : State :=
  { given cfg op xs with phase := .busy, pad := pad, ng := ng, gi := gi }

/-- What an answer's next state holds. -/
def after {α : Type} (o : Host.Outcome State Fault Refusal) (f : State → α) : Option α :=
  match o with
  | .next s => some (f s)
  | .fault _ => none
  | .refused _ => none

/-- Why an answer is a refusal. -/
def whyRefused (o : Host.Outcome State Fault Refusal) : Option Refusal :=
  match o with
  | .next _ => none
  | .fault _ => none
  | .refused r => some r

/-- Why an answer is a fault. -/
def whyFault (o : Host.Outcome State Fault Refusal) : Option Fault :=
  match o with
  | .next _ => none
  | .fault r => some r
  | .refused _ => none

/-- What a host reads after an operation: STATUS, OUT_LEN, the result. -/
def readOut (s : State) : BitVec 2 × Nat × List Byte := (hostReadStatus s, hostReadOutLen s, hostReadResult s)

/-- What a host reads after an error: STATUS, OUT_LEN, ERR_IDX, ERR_CHAR. -/
def readError (s : State) : BitVec 2 × Nat × Nat × Byte :=
  (hostReadStatus s, hostReadOutLen s, hostReadErrIdx s, hostReadErrChar s)

/-- The bytes of "Hello" (V-S1). -/
def hello : List Byte := [0x48, 0x65, 0x6C, 0x6C, 0x6F]

/-- The codes of the text `nm=QNzV` (V-S1). -/
def helloText : List Byte := [0x6E, 0x6D, 0x3D, 0x51, 0x4E, 0x7A, 0x56]

/-- The codes of `nm QN`, a space at index 2 (V-X8). -/
def spaceText : List Byte := [0x6E, 0x6D, 0x20, 0x51, 0x4E]

/-- The codes of `nm=QN%nSc1`, whose second group is 2^32 (V-O16). -/
def overText : List Byte := [0x6E, 0x6D, 0x3D, 0x51, 0x4E, 0x25, 0x6E, 0x53, 0x63, 0x31]

/-! ### Well-formedness -/

/-- IN_LEN = MAX_LEN is in range, one more is not (R55, R37). -/
theorem test_wf_length_at_max : Cmd.wf strict ⟨0, 17⟩ = true ∧ Cmd.wf strict ⟨1, 18⟩ = false := by decide

/-- With an infinite MAX_LEN every length is in range (R37). -/
theorem test_wf_length_unbounded : Cmd.wf usual ⟨1, 1000000⟩ = true := by decide

/-- For MAX_LEN = 17 and so ceil(85/4) = 22, LEN_BITS of 5 and of 8 are enough, 4 is not, and without a bound there is
no such register; for an infinite MAX_LEN no width is enough (R5, D4). -/
theorem test_wf_build :
    strict.wf = true ∧ wide.wf = true ∧ usual.wf = true ∧ Config.wf { strict with lenBits := some 4 } = false ∧
      Config.wf { strict with lenBits := none } = false ∧ Config.wf { usual with lenBits := some 64 } = false := by decide

/-! ### Decoding: words written out from R55 and R60 -/

/-- Format CMD: OP is bit 0. -/
theorem test_decode_commands :
    decodeTableWord 8 0b00000000 = some .cmdEncode ∧ decodeTableWord 8 0b00000001 = some .cmdDecode := by decide

/-- Format SYM8: the ends of the digit run and of the letter runs. -/
theorem test_decode_runs :
    decodeTableWord 8 0b00110000 = some .sym0 ∧ decodeTableWord 8 0b00111001 = some .sym9 ∧
      decodeTableWord 8 0b01100001 = some .sym10 ∧ decodeTableWord 8 0b01111010 = some .sym35 ∧
      decodeTableWord 8 0b01000001 = some .sym36 ∧ decodeTableWord 8 0b01011010 = some .sym61 := by decide

/-- Format SYM8: the punctuation, digits 62 to 84, by their codes in the order of R11. -/
theorem test_decode_punctuation :
    [0x2E, 0x2D, 0x3A, 0x2B, 0x3D, 0x5E, 0x21, 0x2F, 0x2A, 0x3F, 0x26, 0x3C, 0x3E, 0x28, 0x29, 0x5B, 0x5D, 0x7B,
      0x7D, 0x40, 0x25, 0x24, 0x23].map (decodeTableWord 8) =
      [some .sym62, some .sym63, some .sym64, some .sym65, some .sym66, some .sym67, some .sym68, some .sym69,
        some .sym70, some .sym71, some .sym72, some .sym73, some .sym74, some .sym75, some .sym76, some .sym77,
        some .sym78, some .sym79, some .sym80, some .sym81, some .sym82, some .sym83, some .sym84] := by decide

/-- The digits 1 to 8, by the closed form of R11. -/
theorem test_decode_digits :
    [0x31, 0x32, 0x33, 0x34, 0x35, 0x36, 0x37, 0x38].map (decodeTableWord 8) =
      [some .sym1, some .sym2, some .sym3, some .sym4, some .sym5, some .sym6, some .sym7, some .sym8] := by decide

/-- The letters `b` to `y`, by the closed form of R11. -/
theorem test_decode_lower_case :
    ((List.range 24).map (fun k => 0x62 + k)).map (decodeTableWord 8) =
      [some .sym11, some .sym12, some .sym13, some .sym14, some .sym15, some .sym16, some .sym17, some .sym18,
        some .sym19, some .sym20, some .sym21, some .sym22, some .sym23, some .sym24, some .sym25, some .sym26,
        some .sym27, some .sym28, some .sym29, some .sym30, some .sym31, some .sym32, some .sym33, some .sym34] := by
  decide

/-- The letters `B` to `Y`, by the closed form of R11. -/
theorem test_decode_upper_case :
    ((List.range 24).map (fun k => 0x42 + k)).map (decodeTableWord 8) =
      [some .sym37, some .sym38, some .sym39, some .sym40, some .sym41, some .sym42, some .sym43, some .sym44,
        some .sym45, some .sym46, some .sym47, some .sym48, some .sym49, some .sym50, some .sym51, some .sym52,
        some .sym53, some .sym54, some .sym55, some .sym56, some .sym57, some .sym58, some .sym59, some .sym60] := by
  decide

/-- The eight codes inside the span that are no symbol, and both sides of it (R12, R71), are refused by name. -/
theorem test_decode_refused :
    [0x22, 0x27, 0x2C, 0x3B, 0x5C, 0x5F, 0x60, 0x7C, 0x20, 0x7E, 0x7F, 0x80, 0xFF].map
        (fun x : Byte => decide (decodeSym x = .error (.invalidSymbol x))) = List.replicate 13 true := by decide

/-- A text character of code 0x00 or 0x01 is no symbol, though OP holds those values (R54). -/
theorem test_decode_low_codes :
    decodeSym 0x00 = .error (.invalidSymbol 0x00) ∧ decodeSym 0x01 = .error (.invalidSymbol 0x01) := by decide

/-- No bytes, no instruction. -/
theorem test_decode_nothing : decode [] = .error .noBytes := by decide

/-! ### The primitives (the group-level working of spec/95_test_vectors.md) -/

/-- V-S1, group 1 of ENCODE: 6F 00 00 00. -/
theorem test_digits_of_tail_group :
    encDigits (encPack #v[0x6F, 0x00, 0x00, 0x00]) = #v[35, 57, 33, 65, 26] := by decide

/-- R84: the word 2^32 - 1. -/
theorem test_digits_of_top_word : encDigits (encPack #v[0xFF, 0xFF, 0xFF, 0xFF]) = #v[82, 23, 54, 12, 0] := by decide

/-- V-S1, group 1 of DECODE: `zV###` is 6F 05 A5 E4. -/
theorem test_unpack_of_tail_group :
    decUnpack (BitVec.ofNat 32 (decAcc #v[35, 57, 84, 84, 84])) = #v[0x6F, 0x05, 0xA5, 0xE4] := by decide

/-- R106: `#####` is 4437053124; wrapped it is 142085828. -/
theorem test_narrow_of_all_84 :
    decAcc #v[84, 84, 84, 84, 84] = 4437053124 ∧ decNarrow .wrap 4437053124 = some 142085828 ∧
      decNarrow .fault 4437053124 = none := by decide

/-! ### The commands -/

/-- V-S1: ENCODE "Hello" is `nm=QNzV`. -/
theorem test_encode_hello :
    after (exec .cmdEncode (given usual 0 hello)) readOut = some (0, 7, helloText) := by decide

/-- V-S7: ENCODE of nothing. -/
theorem test_encode_empty : after (exec .cmdEncode (given strict 0 [])) readOut = some (0, 0, []) := by decide

/-- V-S1: DECODE `nm=QNzV` is "Hello"; and P6, `wrap`: the group of 2^32 gives four zero bytes. -/
theorem test_decode_succeeds :
    after (exec .cmdDecode (given strict 1 helloText)) readOut = some (0, 5, hello) ∧
      after (exec .cmdDecode (given usual 1 overText)) readOut =
        some (0, 8, [0x48, 0x65, 0x6C, 0x6C, 0x00, 0x00, 0x00, 0x00]) := by decide

/-- V-X8, a space at index 2; V-X22, a character beats an overflow in a lower group; P6, `fault`, ValueOverflow(5);
V-X5, the length beats all. -/
theorem test_decode_fails :
    after (exec .cmdDecode (given strict 1 spaceText)) readError = some (1, 0, 2, 0x20) ∧
      after (exec .cmdDecode (given strict 1 [0x23, 0x23, 0x23, 0x23, 0x23, 0x6E, 0x6D, 0x20, 0x51, 0x4E])) readError =
        some (1, 0, 7, 0x20) ∧
      after (exec .cmdDecode (given strict 1 overText))
        (fun t => (hostReadStatus t, hostReadOutLen t, hostReadErrIdx t)) = some (3, 0, 5) ∧
      after (exec .cmdDecode (given strict 1 [0x23, 0x23, 0x23, 0x23, 0x23, 0x20]))
        (fun t => (hostReadStatus t, hostReadOutLen t)) = some (2, 0) := by decide

/-- R157, R37: START in BUSY, and START with IN_LEN above MAX_LEN. -/
theorem test_start_refused :
    whyRefused (exec .cmdEncode (working strict 0 hello 3 2 0)) = some .startWhileBusy ∧
      whyRefused (exec .cmdDecode (given strict 1 (List.replicate 18 0x30))) = some (.lengthOverMax 18) := by decide

/-! ### The symbols -/

/-- P2, group 0: the first characters of `nm=QN` are the digits 23 and 22. -/
theorem test_symbols_in_order :
    after (exec .sym23 (working slow 1 helloText 3 2 0)) (fun s =>
      after (exec .sym22 s) (fun t => (t.c[0], t.c[1], t.d[0], t.d[1], t.slot))) =
      some (some (0x6E, 0x6D, 23, 22, 2)) := by decide

/-- R103, R104: `#` as the fifth character of its group. -/
theorem test_symbol_in_last_place :
    after (exec .sym84 { working slow 1 helloText 3 2 1 with slot := 4 }) (fun t => (t.c[4], t.d[4], t.slot)) =
      some (0x23, 84, 5) := by decide

/-! ### Steps -/

/-- P1, group step 0, shown by itself. -/
theorem test_step_encode_group :
    after (step (working slow 0 hello 3 2 0))
      (fun t => (t.gi, t.value, t.d, t.obuf.take 5, t.phase)) =
      some (1, 0x48656C6C, #v[23, 22, 66, 52, 49], [0x6E, 0x6D, 0x3D, 0x51, 0x4E], .busy) := by decide

/-- P2, group 1, its arithmetic shown by itself. -/
theorem test_step_decode_arithmetic :
    after (step { working slow 1 helloText 3 2 1 with d := #v[35, 57, 84, 84, 84], slot := 5 })
      (fun t => (t.gi, t.value, t.b, t.obuf.read 4, t.slot)) =
      some (2, 0x6F05A5E4, #v[0x6F, 0x05, 0xA5, 0xE4], 0x6F, 0) := by decide

/-- P1, DONE: OUT_LEN is 7, and the filler at index 7 is no longer specified. -/
theorem test_step_done :
    after (step { working slow 0 hello 3 2 2 with obuf := (Buffer.unspecified 1).writeSeq 0 (helloText ++ [0x78]) })
      (fun t => (t.outLen, t.phase, t.done, lookupCell t.obuf.cells 6, lookupCell t.obuf.cells 7)) =
      some (7, .idle, true, some 0x56, none) := by decide

/-- The reset event in BUSY: IDLE, no DONE, no element of IBUF specified (R150). -/
theorem test_step_reset :
    after (step { working slow 0 hello 3 2 1 with host := [.reset] })
      (fun t => (t.phase, t.done, t.ibuf.cells, t.config)) = some (.idle, false, [], slow) := by decide

/-- Host writes: one element of IBUF, and one outside the capacity (R30). -/
theorem test_step_host_write :
    after (step { given strict 1 [] with host := [.writeIbuf 16 0x7E] }) (fun t => t.ibuf.read 16) = some 0x7E ∧
      whyFault (step { given strict 1 [] with host := [.writeIbuf 17 0x7E] }) = some (.noSuchElement 17) := by decide

/-- Host writes of the command registers (R17), and the host's reads of them and of IBUF in IDLE (R10). -/
theorem test_step_host_command :
    after (step { given strict 0 hello with host := [.writeOp 1] }) (fun t => (hostReadOp t, hostReadLen t)) =
        some (1, 5) ∧
      after (step { given strict 0 hello with host := [.writeLen 4] })
        (fun t => (hostReadOp t, hostReadLen t, hostReadIbuf 4 t)) = some (0, 4, 0x6F) := by decide

/-- With LEN_BITS = 8 the host can write 32, and 255, but not 256; START refuses what is above MAX_LEN (R5, R17, R37). -/
theorem test_step_host_wide :
    after (step { given wide 0 [] with host := [.writeLen 32, .start] })
        (fun t => (t.inLen, whyRefused (step t))) = some (32, some (.lengthOverMax 32)) ∧
      after (step { given wide 0 [] with host := [.writeLen 255] }) State.inLen = some 255 ∧
      whyRefused (step { given wide 0 [] with host := [.writeLen 256] }) = some (.lengthTooWide 256) := by decide

/-- Host writes in BUSY, and one IN_LEN cannot hold: 5 bits hold 22 for MAX_LEN = 17 (R158, R17). -/
theorem test_step_host_refused :
    whyRefused (step { working strict 0 hello 3 2 0 with host := [.writeLen 1] }) = some .hostWriteWhileBusy ∧
      whyRefused (step { given strict 0 [] with host := [.writeLen 32] }) = some (.lengthTooWide 32) := by decide

/-! ### A table word as the first instruction after reset -/

/-- `ENCODE` from reset: IN_LEN is 0, the operation ends with STATUS 0 and OUT_LEN 0. -/
theorem test_first_encode :
    after (step (State.reset.withFetchWord 8 0x00)) (fun t => (t.op, readOut t)) = some (0, 0, 0, []) := by decide

/-- `DECODE` from reset. -/
theorem test_first_decode :
    after (step (State.reset.withFetchWord 8 0x01)) (fun t => (t.op, readOut t)) = some (1, 0, 0, []) := by decide

/-- `SYM.66` from reset: the decoder takes `=`. -/
theorem test_first_symbol :
    after (step (State.reset.withFetchWord 8 0x3D)) (fun t => (t.c[0], t.d[0], t.slot)) = some (0x3D, 66, 1) := by decide

/-- A code that is no symbol in the same place: InvalidCharacter(0, 0x20). -/
theorem test_first_not_a_symbol :
    after (step (State.reset.withFetchWord 8 0x20)) readError = some (1, 0, 0, 0x20) := by decide

/-! ### Witnesses: states and operands that meet the hypotheses of each obligation -/

/-- The states of the witnesses are ready for START. -/
theorem ready_given {cfg : Config} {op : BitVec 1} {xs : List Byte} (h : lengthAllowed cfg.maxLen xs.length = true) :
    Ready (given cfg op xs) := ⟨rfl, h⟩

theorem test_witness_MapperTablesAreInverse : rev 0x3D = some 66 ∧ ∀ i, fwd i ≠ 0x20 := by decide

/-- R11: the ends of the three runs, and the ends of the 23-symbol sequence. -/
theorem test_witness_CodesAreClassified :
    [0, 9, 10, 35, 36, 61, 62, 84].map fwd = [0x30, 0x39, 0x61, 0x7A, 0x41, 0x5A, 0x2E, 0x23] := by decide

theorem test_witness_DecodeOfEncodeIsTheInstruction : Instr.wf .sym84 = true := by decide

theorem test_witness_NarrowWrapsOrFaults :
    4294967295 ≤ 85 ^ 5 - 1 ∧ 4294967295 < 2 ^ 32 ∧ 4294967296 ≤ 85 ^ 5 - 1 ∧ 2 ^ 32 ≤ 4294967296 ∧
      2 ^ 32 ≤ 85 ^ 5 - 1 := by decide

theorem test_witness_DecodeLengthLaw : decodeSeq .fault helloText = .ok hello := by decide

theorem test_witness_EncodingStaysInAlphabet : 0x56 ∈ encodeSeq hello := by decide

theorem test_witness_EncodeConcatenates : (hello.take 4).length % 4 = 0 := by decide

theorem test_witness_DecodeConcatenates :
    (helloText.take 5).length % 5 = 0 ∧ decodeSeq .wrap (helloText.take 5) = .ok (hello.take 4) ∧
      decodeSeq .wrap (helloText.take 5 ++ helloText.drop 5) = .ok hello := by decide

/-- R111: a length of 1 modulo 5. -/
theorem test_witness_DecodeErrorOrder_length : (helloText.take 6).length % 5 = 1 := by decide

/-- R111: the lowest invalid character at index 0, and at index 2. -/
theorem test_witness_DecodeErrorOrder_character :
    ([0x20, 0x30] : List Byte).length % 5 ≠ 1 ∧ rev 0x20 = none ∧ spaceText.length % 5 ≠ 1 ∧
      rev spaceText[2] = none ∧ ∀ j (hj : j < 2), (rev (spaceText[j]'(Nat.lt_trans hj (by decide)))).isSome = true := by
  decide

/-- R111: the first overflowing group is group 1, `%nSc1`, of exactly 2^32. -/
theorem test_witness_DecodeErrorOrder_overflow :
    overText.length % 5 ≠ 1 ∧ (∀ x ∈ overText, (rev x).isSome = true) ∧ 1 < decGroupCount overText.length ∧
      2 ^ 32 = groupValue overText 1 ∧ ∀ h, h < 1 → groupValue overText h < 2 ^ 32 := by decide

/-- R111: no error, in either mode. -/
theorem test_witness_DecodeErrorOrder_success :
    helloText.length % 5 ≠ 1 ∧ (∀ x ∈ helloText, (rev x).isSome = true) ∧
      ∀ g, g < decGroupCount helloText.length → groupValue helloText g < 2 ^ 32 := by decide

theorem test_witness_WholeTextsAreCanonical :
    (helloText.take 5).length % 5 = 0 ∧ decodeSeq .fault (helloText.take 5) = .ok (hello.take 4) := by decide

theorem test_witness_EncodeCommandCompletes :
    Ready (given usual 0 hello) ∧ (given usual 0 hello).config.pace = .collapsed := ⟨ready_given rfl, rfl⟩

/-- Both outcomes of DECODE. -/
theorem test_witness_DecodeCommandCompletes :
    (Ready (given usual 1 helloText) ∧ decodeSeq .wrap (inputSeq (given usual 1 helloText)) = .ok hello) ∧
      Ready (given strict 1 spaceText) ∧
      decodeSeq .fault (inputSeq (given strict 1 spaceText)) = .error (.invalidCharacter 2 0x20) :=
  ⟨⟨ready_given rfl, by decide⟩, ready_given rfl, by decide⟩

theorem test_witness_DecodeOfLegalTextSucceeds :
    Ready (given usual 1 helloText) ∧ (given usual 1 helloText).config.ovfMode = .wrap ∧
      (given usual 1 helloText).inLen % 5 ≠ 1 ∧
      ∀ i, i < (given usual 1 helloText).inLen → (rev ((given usual 1 helloText).ibuf.read i)).isSome = true :=
  ⟨ready_given rfl, rfl, by decide, by decide⟩

theorem test_witness_MalformedLengthIsReported :
    Ready (given strict 1 [0x20]) ∧ (given strict 1 [0x20]).inLen % 5 = 1 := ⟨ready_given rfl, rfl⟩

theorem test_witness_InvalidCharacterIsReported :
    Ready (given strict 1 spaceText) ∧ (given strict 1 spaceText).inLen % 5 ≠ 1 ∧
      2 < (given strict 1 spaceText).inLen ∧ rev ((given strict 1 spaceText).ibuf.read 2) = none ∧
      (∀ j, j < 2 → (rev ((given strict 1 spaceText).ibuf.read j)).isSome = true) ∧
      (given strict 1 spaceText).config.errInfo = .indexAndChar ∧
      Ready (given strictNoInfo 1 spaceText) ∧ (given strictNoInfo 1 spaceText).config.errInfo = .noInfo :=
  ⟨ready_given rfl, by decide, by decide, by decide, by decide, rfl, ready_given rfl, rfl⟩

theorem test_witness_ValueOverflowIsReported :
    Ready (given strict 1 overText) ∧ (given strict 1 overText).config.pace = .collapsed ∧
      (given strict 1 overText).config.ovfMode = .fault ∧ (given strict 1 overText).inLen % 5 ≠ 1 ∧
      (∀ j, j < (given strict 1 overText).inLen → (rev ((given strict 1 overText).ibuf.read j)).isSome = true) ∧
      1 < decGroupCount (given strict 1 overText).inLen ∧
      2 ^ 32 ≤ groupValue (inputSeq (given strict 1 overText)) 1 ∧
      ∀ h, h < 1 → groupValue (inputSeq (given strict 1 overText)) h < 2 ^ 32 :=
  ⟨ready_given rfl, rfl, rfl, by decide, by decide, by decide, by decide, by decide⟩

theorem test_witness_EncodeStartStepwise :
    Ready (given slow 0 hello) ∧ (given slow 0 hello).config.pace = .stepwise := ⟨ready_given rfl, rfl⟩

theorem test_witness_DecodeStartStepwise :
    Ready (given slow 1 helloText) ∧ (given slow 1 helloText).config.pace = .stepwise ∧
      (given slow 1 helloText).inLen % 5 ≠ 1 ∧
      ∀ i, i < (given slow 1 helloText).inLen → (rev ((given slow 1 helloText).ibuf.read i)).isSome = true :=
  ⟨ready_given rfl, rfl, by decide, by decide⟩

/-- Both commands answer, ending IDLE (collapsed, without ERR_IDX) and ending BUSY (stepwise). -/
theorem test_witness_CommandFrame :
    after (exec .cmdEncode (given strictNoInfo 0 hello)) State.phase = some .idle ∧
      after (exec .cmdDecode (given strictNoInfo 1 helloText)) State.phase = some .idle ∧
      after (exec .cmdEncode (given slow 0 hello)) State.phase = some .busy ∧
      after (exec .cmdDecode (given slow 1 helloText)) State.phase = some .busy := by decide

theorem test_witness_StartInBusyIsRefused : (working usual 0 hello 3 2 0).phase = .busy := rfl

theorem test_witness_LengthOverMaxIsRefused :
    (given strict 0 (List.replicate 18 0x30)).phase = .idle ∧
      (given strict 0 (List.replicate 18 0x30)).config.maxLen = some 17 ∧
      17 < (given strict 0 (List.replicate 18 0x30)).inLen := by decide

/-- Two states that differ in STATUS, OBUF and the working registers: both commands answer, with success, with
InvalidCharacter and with ValueOverflow. -/
theorem test_witness_ResultDependsOnInputAlone :
    [hello].map (fun xs => (after (exec .cmdEncode (given strict 0 xs)) State.status,
      after (exec .cmdEncode { given strict 0 xs with status := .malformedLength, obuf := ⟨[(0, 1)], 1⟩, gi := 9 })
        State.status)) = [(some .ok, some .ok)] ∧
      [helloText, spaceText, overText].map (fun xs => (after (exec .cmdDecode (given strict 1 xs)) State.status,
        after (exec .cmdDecode { given strict 1 xs with status := .malformedLength, obuf := ⟨[(0, 1)], 1⟩, gi := 9 })
          State.status)) =
        [(some .ok, some .ok), (some .invalidCharacter, some .invalidCharacter),
          (some .valueOverflow, some .valueOverflow)] := by decide

theorem test_witness_CommandsRoundTrip :
    Ready (given usual 0 hello) ∧ after (exec .cmdEncode (given usual 0 hello)) outputSeq = some helloText ∧
      Ready (given usual 1 helloText) ∧ inputSeq (given usual 1 helloText) = helloText :=
  ⟨ready_given rfl, by decide, ready_given rfl, by decide⟩

/-- The first and the last symbol, in the first and the last place. -/
theorem test_witness_SymbolIsTaken :
    Instr.digit? .sym0 = some 0 ∧ Instr.digit? .sym84 = some 84 ∧ takePlace (working slow 1 helloText 3 2 0) = 0 ∧
      takePlace { working slow 1 helloText 3 2 0 with slot := 4 } = 4 := by decide

theorem test_witness_SymbolFrame :
    Instr.digit? .sym66 = some 66 ∧ after (exec .sym66 (working slow 1 helloText 3 2 0)) State.slot = some 1 ∧
      (1 : Fin 5) ≠ takePlace (working slow 1 helloText 3 2 0) := by decide

/-- START; a look-up in BUSY with no move of the host, and one while the host waits. -/
theorem test_witness_StepRunsTheInstruction :
    ({ given usual 0 hello with host := [.start] } : State).host = [.start] ∧
      (let s := working slow 1 helloText 3 2 1
       s.host = [] ∧ s.phase = .busy ∧ s.op = 1#1 ∧ s.gi < s.ng ∧ s.slot ≠ 5 ∧ decodeSym (decLoad s) = .ok .sym35) ∧
      (let s := { working slow 1 helloText 3 2 1 with host := [.await], slot := 4 }
       s.host = [.await] ∧ s.phase = .busy ∧ s.op = 1#1 ∧ s.gi < s.ng ∧ s.slot ≠ 5 ∧
         decodeSym (decLoad s) = .ok .sym84) := by decide

/-- The last group of "Hello" has one byte of input; the elements 4 and 10 lie outside the stored ones. Left alone
both ways. -/
theorem test_witness_EncodeGroupStep :
    LeftAlone (working slow 0 hello 3 2 1) ∧
      LeftAlone { working slow 0 hello 3 2 1 with host := [.await, .writeOp 1] } ∧
      (let s := working slow 0 hello 3 2 1
       s.phase = .busy ∧ s.op = 0#1 ∧ s.gi < s.ng ∧ 4 < 5 * s.gi ∧ 5 * s.gi + 5 ≤ 10) :=
  ⟨.inl rfl, .inr ⟨_, rfl⟩, by decide⟩

/-- The largest value that does not overflow, and the smallest that does, each in the mode of its clause. -/
theorem test_witness_DecodeArithmeticStep :
    (let s := { working { slow with ovfMode := .fault } 1 helloText 3 2 1 with d := #v[82, 23, 54, 12, 0], slot := 5 }
     LeftAlone s ∧ s.phase = .busy ∧ s.op = 1#1 ∧ s.gi < s.ng ∧ s.slot = 5 ∧ decAcc s.d = 2 ^ 32 - 1) ∧
      (let s := { working { slow with ovfMode := .fault } 1 helloText 3 2 1 with
        d := #v[82, 23, 54, 12, 1], slot := 5, host := [.await] }
       LeftAlone s ∧ s.phase = .busy ∧ s.op = 1#1 ∧ s.gi < s.ng ∧ s.slot = 5 ∧ decAcc s.d = 2 ^ 32 ∧
         s.config.ovfMode = .fault) ∧
      (let s := { working slow 1 helloText 3 2 0 with d := #v[84, 84, 84, 84, 84], slot := 5 }
       LeftAlone s ∧ s.phase = .busy ∧ s.op = 1#1 ∧ s.gi < s.ng ∧ s.slot = 5 ∧ 2 ^ 32 ≤ decAcc s.d ∧
         s.config.ovfMode = .wrap) :=
  ⟨⟨.inl rfl, by decide⟩, ⟨.inr ⟨_, rfl⟩, by decide⟩, ⟨.inl rfl, by decide⟩⟩

/-- Both operations with no group left, in one the host waiting. -/
theorem test_witness_DoneStep :
    (let s := working slow 0 hello 3 2 2
     LeftAlone s ∧ s.phase = .busy ∧ s.gi = s.ng) ∧
      (let s := { working slow 1 helloText 3 2 2 with host := [.await] }
       LeftAlone s ∧ s.phase = .busy ∧ s.gi = s.ng) :=
  ⟨⟨.inl rfl, by decide⟩, ⟨.inr ⟨_, rfl⟩, by decide⟩⟩

theorem test_witness_IdleStep :
    (given usual 0 hello).phase = .idle ∧ (given usual 0 hello).host = [] ∧
      ({ given usual 0 hello with host := [.await] } : State).host = [.await] := by decide

theorem test_witness_ResetEventStep :
    ({ working slow 0 hello 3 2 1 with host := [.reset, .start] } : State).host = [.reset, .start] := by decide

/-- A step that is neither a host write of IBUF nor a reset. -/
theorem test_witness_CoreLeavesIbufAndIgnoresObuf :
    after (step { given usual 0 hello with host := [.start] }) State.phase = some .idle ∧
      (∀ i v rest, ({ given usual 0 hello with host := [.start] } : State).host ≠ .writeIbuf i v :: rest) ∧
      ∀ rest, ({ given usual 0 hello with host := [.start] } : State).host ≠ .reset :: rest :=
  ⟨by decide, (fun _ _ _ h => by cases h), (fun _ h => by cases h)⟩

theorem test_witness_StepKeepsConfig :
    after (step (working slow 0 hello 3 2 0)) State.config = some slow := by decide

/-- A move the spec gives the host, and one it does not. -/
theorem test_witness_StepAnswersExactlyTheDisciplinedHost :
    Disciplined { given strict 0 hello with host := [.start] } ∧
      ¬Disciplined { working strict 0 hello 3 2 0 with host := [.start] } :=
  ⟨⟨rfl, rfl⟩, fun h => by cases h.1⟩

theorem test_witness_EveryOperationEnds :
    (working slow 1 helloText 3 2 0).phase = .busy ∧ LeftAlone (working slow 1 helloText 3 2 0) ∧
      LeftAlone { working slow 1 helloText 3 2 0 with host := [.await] } :=
  ⟨rfl, .inl rfl, .inr ⟨_, rfl⟩⟩

/-- The state of P2 after its first group: in sequence, with a character of the tail to look up. -/
theorem sequence_of_tail : SequenceInv (working slow 1 helloText 3 2 1) := by
  intro _
  refine ⟨rfl, rfl, by decide, ?_⟩
  rw [if_neg (by decide)]
  exact ⟨by decide, by decide, rfl, rfl, fun h => absurd rfl h, fun k hk => absurd hk (Nat.not_lt_zero _)⟩

theorem test_witness_LookupsAfterStartAreValid :
    SequenceInv (working slow 1 helloText 3 2 1) ∧ (working slow 1 helloText 3 2 1).phase = .busy ∧
      (working slow 1 helloText 3 2 1).op = 1#1 ∧
      (working slow 1 helloText 3 2 1).gi < (working slow 1 helloText 3 2 1).ng ∧
      (working slow 1 helloText 3 2 1).slot ≠ 5 :=
  ⟨sequence_of_tail, rfl, rfl, by decide, by decide⟩

theorem test_witness_HostWritesInBusyAreRefused :
    (working slow 0 hello 3 2 0).phase = .busy ∧
      ({ working slow 0 hello 3 2 0 with host := [.writeOp 1] } : State).host = [.writeOp 1] ∧
      ({ working slow 0 hello 3 2 0 with host := [.writeLen 4] } : State).host = [.writeLen 4] ∧
      ({ working slow 0 hello 3 2 0 with host := [.writeIbuf 0 1] } : State).host = [.writeIbuf 0 1] := by decide

/-- The last element of IBUF; OP; the largest value of IN_LEN's 5 bits. -/
theorem test_witness_HostWrites :
    (let s : State := { given strict 0 hello with host := [.writeIbuf 16 0xFF] }
     s.phase = .idle ∧ s.host = [.writeIbuf 16 0xFF] ∧ hasElement s.config.maxLen 16 = true) ∧
      (let s : State := { given strict 0 hello with host := [.writeOp 1] }
       s.phase = .idle ∧ s.host = [.writeOp 1]) ∧
      (let s : State := { given strict 0 hello with host := [.writeLen 31] }
       s.phase = .idle ∧ s.host = [.writeLen 31] ∧ fitsLen s.config.lenBits 31 = true) := by decide

theorem test_witness_HostReadsTheResult :
    Ready (given usual 0 hello) ∧ after (exec .cmdEncode (given usual 0 hello)) State.done = some true ∧
      Ready (given strict 1 helloText) ∧ after (exec .cmdDecode (given strict 1 helloText)) State.done = some true ∧
      decodeSeq strict.ovfMode (inputSeq (given strict 1 helloText)) = .ok hello :=
  ⟨ready_given rfl, by decide, ready_given rfl, by decide, by decide⟩

/-- An InvalidCharacter and a ValueOverflow, with ERR_INFO = index_and_char. -/
theorem test_witness_HostReadsTheError :
    Ready (given strict 1 spaceText) ∧ after (exec .cmdDecode (given strict 1 spaceText)) State.done = some true ∧
      decodeSeq strict.ovfMode (inputSeq (given strict 1 spaceText)) = .error (.invalidCharacter 2 0x20) ∧
      Ready (given strict 1 overText) ∧ after (exec .cmdDecode (given strict 1 overText)) State.done = some true ∧
      decodeSeq strict.ovfMode (inputSeq (given strict 1 overText)) = .error (.valueOverflow 5) :=
  ⟨ready_given rfl, by decide, by decide, ready_given rfl, by decide, by decide⟩

/-- The memory's form holds of a started core, which steps. -/
theorem test_witness_StepKeepsMemoryForm :
    MemoryInv { given strict 0 hello with host := [.start] } ∧
      after (step { given strict 0 hello with host := [.start] }) State.phase = some .idle :=
  ⟨⟨by decide, by decide, by decide, by decide, by decide, by decide⟩, by decide⟩

/-- The result registers agree after an operation that ended with STATUS = 3, and the state steps. -/
theorem test_witness_StepKeepsResultRegisters :
    let s : State := { given strict 1 overText with status := .valueOverflow, done := true, host := [.start] }
    ResultInv s ∧ s.done = true ∧ after (step s) (fun t => (t.done, t.status)) = some (true, .valueOverflow) :=
  ⟨fun _ => ⟨fun _ => rfl, fun _ => rfl⟩, rfl, by decide⟩

/-- A DECODE in progress is in sequence, and steps. -/
theorem test_witness_StepKeepsSequencing :
    SequenceInv (working slow 1 helloText 3 2 1) ∧
      after (step (working slow 1 helloText 3 2 1)) State.slot = some 1 :=
  ⟨sequence_of_tail, by decide⟩

/-- With the least LEN_BITS, and with a wider one; OUT_LEN of the completed operation at its largest, 22. -/
theorem test_witness_StepKeepsWidths :
    let s : State := { given strict 0 hello with outLen := 22, errIdx := 16, done := true, host := [.start] }
    s.config.wf = true ∧ wide.wf = true ∧ SequenceInv s ∧ WidthInv s ∧
      after (step s) (fun t => (t.done, t.outLen)) = some (true, 7) :=
  ⟨by decide, by decide, (fun h => by cases h), ⟨by decide, by decide, by decide, fun _ => ⟨by decide, fun _ => by decide⟩⟩,
    by decide⟩

theorem test_witness_StepKeepsObufRoom :
    SequenceInv { given strict 0 hello with host := [.start] } ∧
      RoomInv { given strict 0 hello with host := [.start] } ∧
      after (step { given strict 0 hello with host := [.start] }) (fun t => lookupCell t.obuf.cells 6) =
        some (some 0x56) :=
  ⟨(fun h => by cases h), (fun _ _ _ h => by cases h), by decide⟩

theorem test_witness_EncodeStepsRefineTheCommand :
    Ready { given usual 0 hello with host := [.start] } ∧
      ({ given usual 0 hello with host := [.start] } : State).op = 0#1 := ⟨⟨rfl, rfl⟩, rfl⟩

theorem test_witness_DecodeStepsRefineTheCommand :
    Ready { given usual 1 helloText with host := [.start] } ∧
      ({ given usual 1 helloText with host := [.start] } : State).op = 1#1 := ⟨⟨rfl, rfl⟩, rfl⟩

end Sys2Proof.Tests
end

section
/-! How a whole command ends: the cases of DECODE as a function on sequences, and the one form of the state both
commands end in when PACE is collapsed. -/

namespace Sys2Proof.Machine

/-! ### What DECODE answers -/

/-- The outcome of `decodeSeq m text`, one constructor for each way it can end (R111). -/
inductive DecodeCase (m : OvfMode) (text : List Byte) : Except Err (List Byte) → Prop where
  /-- The length is 1 modulo 5 (R102). -/
  | malformed : text.length % 5 = 1 → DecodeCase m text (.error (.malformedLength text.length))
  /-- A character is no symbol; the lowest one counts (R104). -/
  | invalid (i : Nat) (x : Byte) : text.length % 5 ≠ 1 → firstInvalid text 0 = some (i, x) →
      DecodeCase m text (.error (.invalidCharacter i x))
  /-- Group `g` is the first of 2^32 or more, and OVF_MODE is fault (R106). -/
  | overflow (g : Nat) : text.length % 5 ≠ 1 → (∀ x ∈ text, (rev x).isSome = true) → m = .fault →
      g < decGroupCount text.length → 2 ^ 32 ≤ groupValue text g → (∀ h, h < g → groupValue text h < 2 ^ 32) →
      DecodeCase m text (.error (.valueOverflow (5 * g)))
  /-- No check fails (R107 to R110). -/
  | decoded : text.length % 5 ≠ 1 → (∀ x ∈ text, (rev x).isSome = true) →
      (m = .wrap ∨ ∀ g, g < decGroupCount text.length → groupValue text g < 2 ^ 32) →
      DecodeCase m text (.ok (((List.range (decGroupCount text.length)).flatMap (groupBytes text)).take
        (decTrunc (decGroupCount text.length) (decPad text.length))))

theorem decodeSeq_malformed {text : List Byte} (hl : text.length % 5 = 1) (m : OvfMode) :
    decodeSeq m text = .error (.malformedLength text.length) := by
  simp [decodeSeq, decLengthBad, hl]

theorem decodeSeq_invalid {text : List Byte} (hl : text.length % 5 ≠ 1) {i : Nat} {x : Byte}
    (hx : firstInvalid text 0 = some (i, x)) (m : OvfMode) :
    decodeSeq m text = .error (.invalidCharacter i x) := by
  simp [decodeSeq, decLengthBad, hl, hx]

theorem decodeSeq_overflow {text : List Byte} (hl : text.length % 5 ≠ 1) (hv : ∀ x ∈ text, (rev x).isSome = true)
    {g : Nat} (hg : g < decGroupCount text.length) (ho : 2 ^ 32 ≤ groupValue text g)
    (hlow : ∀ h, h < g → groupValue text h < 2 ^ 32) :
    decodeSeq .fault text = .error (.valueOverflow (5 * g)) := by
  have hgroups := decGroupsSeq_overflow hv (decGroupCount text.length) 0 g (Nat.zero_le g) (by omega) ho
    (fun k _ hk => hlow k hk)
  simp [decodeSeq, decLengthBad, hl, firstInvalid_none.mpr hv, hgroups]

/-- Either none of the first `n` groups is 2^32 or more, or there is a lowest one that is. -/
theorem noOverflow_or_firstOverflow (text : List Byte) (n : Nat) :
    (∀ g, g < n → groupValue text g < 2 ^ 32) ∨
      ∃ g, g < n ∧ 2 ^ 32 ≤ groupValue text g ∧ ∀ h, h < g → groupValue text h < 2 ^ 32 := by
  induction n with
  | zero => exact .inl fun g hg => absurd hg (Nat.not_lt_zero g)
  | succ n ih =>
    rcases ih with hall | ⟨g, hg, ho, hlow⟩
    · rcases Nat.lt_or_ge (groupValue text n) (2 ^ 32) with hn | hn
      · exact .inl fun g hg => (Nat.lt_succ_iff_lt_or_eq.mp hg).elim (hall g) (fun e => e ▸ hn)
      · exact .inr ⟨n, Nat.lt_succ_self n, hn, hall⟩
    · exact .inr ⟨g, Nat.lt_succ_of_lt hg, ho, hlow⟩

/-- DECODE ends in one of its four ways. -/
theorem decodeCase_decodeSeq (m : OvfMode) (text : List Byte) : DecodeCase m text (decodeSeq m text) := by
  by_cases hl : text.length % 5 = 1
  · rw [decodeSeq_malformed hl]
    exact .malformed hl
  cases hx : firstInvalid text 0 with
  | some ix =>
    rw [decodeSeq_invalid hl hx]
    exact .invalid ix.1 ix.2 hl hx
  | none =>
    have hv := firstInvalid_none.mp hx
    have ok : (m = .wrap ∨ ∀ g, g < decGroupCount text.length → groupValue text g < 2 ^ 32) →
        DecodeCase m text (decodeSeq m text) := fun hn => by
      rw [decodeSeq_ok hl hv m hn]
      exact .decoded hl hv hn
    rcases noOverflow_or_firstOverflow text (decGroupCount text.length) with hall | ⟨g, hg, ho, hlow⟩
    · exact ok (.inr hall)
    · cases m with
      | wrap => exact ok (.inl rfl)
      | fault =>
        rw [decodeSeq_overflow hl hv hg ho hlow]
        exact .overflow g hl hv rfl hg ho hlow

/-! ### The state a command ends in -/

/-- `u` stands in the operation that START of `s` began: outside the working registers, OBUF and the sizes it is
the state START left. -/
def Begun (s u : State) : Prop := SameOutside (s.begin.setSizes u.pad u.ng) u

theorem Begun.config {s u : State} (h : Begun s u) : u.config = s.config := by
  have hsame : SameOutside (s.begin.setSizes u.pad u.ng) u := h
  exact hsame.config

theorem begun_of_sizes {s u : State} {pad : Fin 5} {ng : Nat}
    (h : SameOutside (s.begin.setSizes pad ng).firstGroup u) : Begun s u := by
  have hpad : u.pad = pad := h.pad
  have hng : u.ng = ng := h.ng
  have hfirst : SameOutside (s.begin.setSizes pad ng) (s.begin.setSizes pad ng).firstGroup := by
    constructor <;> rfl
  rw [Begun, hpad, hng]
  exact hfirst.trans h

/-- `Ends s r t`: the operation begun in `s` is over in `t` with the outcome `r` (R134, R156). -/
inductive Ends (s : State) : Except Err (List Byte) → State → Prop where
  /-- DONE after `xs` was stored from element 0 on, of which the first `n` elements are the result. -/
  | success {u : State} (xs : List Byte) (n : Nat) : Begun s u →
      u.obuf = (Buffer.unspecified s.fresh).writeSeq 0 xs → n ≤ xs.length →
      Ends s (.ok (xs.take n)) (signalDone n u)
  /-- The error `e` was raised. -/
  | failure {u : State} (e : Err) : Begun s u → Ends s (.error e) (raiseError e u)

theorem Ends.config {s t : State} {r : Except Err (List Byte)} (h : Ends s r t) : t.config = s.config := by
  cases h with
  | success xs n hu => exact hu.config
  | failure e hu => exact hu.config

/-- After success STATUS is 0, and the result is the outcome. -/
theorem Ends.ok {s t : State} {out : List Byte} (h : Ends s (.ok out) t) :
    t.status = .ok ∧ t.outLen = out.length ∧ outputSeq t = out := by
  cases h with
  | success xs n hu hobuf hn =>
    refine ⟨rfl, by simpa using hn, ?_⟩
    rw [outputSeq, signalDone_obuf, signalDone_outLen, hobuf]
    exact take_truncated _ _ n xs hn

/-- After an error STATUS is its code, and there is no result. -/
theorem Ends.error {s t : State} {e : Err} (h : Ends s (.error e) t) :
    t.status = errStatus e ∧ t.outLen = 0 ∧ outputSeq t = [] := by
  cases h
  exact ⟨rfl, rfl, rfl⟩

/-- With ERR_INFO = index_and_char the two diagnostic registers hold what the error defines (R131, R133). -/
theorem Ends.errorInfo {s t : State} {e : Err} (h : Ends s (.error e) t) (hinfo : s.config.errInfo = .indexAndChar) :
    (∀ i x, e = .invalidCharacter i x → t.errIdx = i ∧ t.errChar = x) ∧
      ∀ i, e = .valueOverflow i → t.errIdx = i := by
  cases h with
  | failure e hu =>
    rw [← hu.config] at hinfo
    constructor
    · rintro i x rfl
      simp [errIdxAfter, errCharAfter, hinfo]
    · rintro i rfl
      simp [errIdxAfter, hinfo]

/-- ENCODE as one transition ends with the encoding of its input. -/
theorem encRun_ends (s : State) : Ends s (.ok (encodeSeq (inputSeq s))) (encRun s) := by
  obtain ⟨hsame, -, -, hobuf⟩ := encBefore s
  rw [encRun_eq, encDone, hsame.ng, hsame.pad, encodeSeq, inputSeq_length]
  refine .success _ _ (begun_of_sizes hsame) hobuf ?_
  rw [flatMap_range_length _ 5 (encGroupSeq_length _)]
  exact Nat.sub_le _ _

/-- A DECODE that START ends goes no further. -/
theorem decRun_of_idle {s : State} (h : (decStart s).phase = .idle) : decRun s = decStart s := by
  simp [decRun, whileBusy_idle _ _ _ h, ifBusy, h]

/-- The state START of DECODE leaves where both checks pass (R154). -/
def decBegun (s : State) : State := (s.begin.setSizes (decPad s.inLen) (decGroupCount s.inLen)).firstGroup

/-- A DECODE that passes both checks goes on with its groups. -/
theorem decRun_of_valid {s : State} (hl : s.inLen % 5 ≠ 1) (hv : ValidIn s) :
    decRun s = ifBusy decDone (whileBusy decGroup (decGroupCount s.inLen) (decBegun s)) := by
  rw [decRun, decStart_ok hl hv]
  rfl

/-- DECODE as one transition ends with the decoding of its input, or with its error. -/
theorem decRun_ends (s : State) : Ends s (decodeSeq s.config.ovfMode (inputSeq s)) (decRun s) := by
  have hcase := decodeCase_decodeSeq s.config.ovfMode (inputSeq s)
  generalize decodeSeq s.config.ovfMode (inputSeq s) = r at hcase ⊢
  cases hcase with
  | malformed hl =>
    rw [inputSeq_length] at hl ⊢
    have hstart := decStart_malformed hl
    rw [decRun_of_idle (by rw [hstart]; rfl), hstart]
    exact .failure _ (by constructor <;> rfl)
  | invalid i x hl hx =>
    rw [inputSeq_length] at hl
    have hstart := decStart_invalid hl hx
    rw [decRun_of_idle (by rw [hstart]; rfl), hstart]
    exact .failure _ (by constructor <;> rfl)
  | overflow g hl hv hm hg ho hlow =>
    rw [inputSeq_length] at hl hg
    have hgi : ∀ h, (decBegun s).gi + h = h := Nat.zero_add
    obtain ⟨u, hu, -, hloop⟩ := decLoop_overflow (decGroupCount s.inLen) g (decBegun s) rfl hv rfl hm hg
      (by rw [hgi]; exact ho) (fun h hh => by rw [hgi]; exact hlow h hh)
    rw [decRun_of_valid hl hv, hloop, hgi]
    exact .failure _ (begun_of_sizes hu)
  | decoded hl hv hn =>
    rw [inputSeq_length] at hl hn ⊢
    have hgi : ∀ h, (decBegun s).gi + h = h := Nat.zero_add
    obtain ⟨hsame, -, -, hobuf⟩ := decLoop (decGroupCount s.inLen) (decBegun s) rfl hv rfl
      (hn.imp id fun h j hj => by rw [hgi]; exact h j hj)
    simp only [hgi] at hobuf
    have hbusy : (whileBusy decGroup (decGroupCount s.inLen) (decBegun s)).phase = .busy := hsame.phase
    rw [decRun_of_valid hl hv, ifBusy, if_pos hbusy, decDone, hsame.ng, hsame.pad]
    refine .success _ _ (begun_of_sizes hsame) hobuf ?_
    rw [flatMap_range_length _ 4 (groupBytes_length _)]
    exact Nat.sub_le _ _

theorem ready_of_acceptStart {s t : State} {run : State → State} (h : acceptStart s run = .next t) : Ready s := by
  rw [acceptStart] at h
  split at h
  · cases h
  · rename_i hphase
    split at h
    · rename_i hlen
      exact ⟨by cases hp : s.phase <;> simp_all, hlen⟩
    · cases h

/-- A command that answers a next state was begun in a core ready for START. -/
theorem ready_of_command {i : Instr} {s t : State} (hi : i = .cmdEncode ∨ i = .cmdDecode)
    (h : exec i s = .next t) : Ready s := by
  rcases hi with rfl | rfl
  · rw [show exec .cmdEncode s = execEncode s from rfl, execEncode] at h
    exact ready_of_acceptStart h
  · rw [show exec .cmdDecode s = execDecode s from rfl, execDecode] at h
    exact ready_of_acceptStart h

/-- ENCODE with PACE collapsed, where it answers. -/
theorem exec_encode_ends {s t : State} (hp : s.config.pace = .collapsed) (h : exec .cmdEncode s = .next t) :
    Ends s (.ok (encodeSeq (inputSeq s))) t := by
  rw [exec_encode (ready_of_command (.inl rfl) h), hp] at h
  cases h
  exact encRun_ends s

/-- DECODE with PACE collapsed, where it answers. -/
theorem exec_decode_ends {s t : State} (hp : s.config.pace = .collapsed) (h : exec .cmdDecode s = .next t) :
    Ends s (decodeSeq s.config.ovfMode (inputSeq s)) t := by
  rw [exec_decode (ready_of_command (.inr rfl) h), hp] at h
  cases h
  exact decRun_ends s

end Sys2Proof.Machine
end

section
/-! The result of a command is a function of the build and the input (R6, R39). -/

namespace Sys2Proof.Machine

/-- The build and the outcome determine what a command reports: STATUS, the result, and the error information that
is defined. -/
theorem Ends.report_eq {s₁ s₂ t₁ t₂ : State} {r : Except Err (List Byte)} (h₁ : Ends s₁ r t₁) (h₂ : Ends s₂ r t₂)
    (hcfg : s₁.config = s₂.config) :
    t₁.status = t₂.status ∧ t₁.outLen = t₂.outLen ∧ outputSeq t₁ = outputSeq t₂ ∧
      (s₁.config.errInfo = .indexAndChar →
        (t₁.status = .invalidCharacter → t₁.errIdx = t₂.errIdx ∧ t₁.errChar = t₂.errChar) ∧
          (t₁.status = .valueOverflow → t₁.errIdx = t₂.errIdx)) := by
  cases r with
  | ok out =>
    obtain ⟨hst₁, hlen₁, hout₁⟩ := h₁.ok
    obtain ⟨hst₂, hlen₂, hout₂⟩ := h₂.ok
    simp [hst₁, hst₂, hlen₁, hlen₂, hout₁, hout₂]
  | error e =>
    obtain ⟨hst₁, hlen₁, hout₁⟩ := h₁.error
    obtain ⟨hst₂, hlen₂, hout₂⟩ := h₂.error
    refine ⟨by rw [hst₁, hst₂], by rw [hlen₁, hlen₂], by rw [hout₁, hout₂], fun hinfo => ?_⟩
    obtain ⟨hchar₁, hover₁⟩ := h₁.errorInfo hinfo
    obtain ⟨hchar₂, hover₂⟩ := h₂.errorInfo (hcfg ▸ hinfo)
    rw [hst₁]
    cases e with
    | malformedLength len => simp [errStatus]
    | invalidCharacter i x =>
      simp [errStatus, hchar₁ i x rfl, hchar₂ i x rfl]
    | valueOverflow i => simp [errStatus, hover₁ i rfl, hover₂ i rfl]

/-- Settles O33: each run ends with the outcome that the function on sequences gives for the input, and the outcome
and the build determine the report. -/
theorem resultDependsOnInputAlone : Obligations.ResultDependsOnInputAlone := by
  intro i s₁ s₂ t₁ t₂ hi hpace hcfg hin h₁ h₂
  have hpace₂ : s₂.config.pace = .collapsed := hcfg ▸ hpace
  rcases hi with rfl | rfl
  · have hend₂ := exec_encode_ends hpace₂ h₂
    rw [← hin] at hend₂
    exact (exec_encode_ends hpace h₁).report_eq hend₂ hcfg
  · have hend₂ := exec_decode_ends hpace₂ h₂
    rw [← hin, ← hcfg] at hend₂
    exact (exec_decode_ends hpace h₁).report_eq hend₂ hcfg

end Sys2Proof.Machine
end

section
/-! No step changes the build (R5). -/

namespace Sys2Proof.Machine

@[simp] theorem encStart_config (s : State) : (encStart s).config = s.config := rfl

@[simp] theorem decStart_config (s : State) : (decStart s).config = s.config := by
  by_cases hl : s.inLen % 5 = 1
  · rw [decStart_malformed hl]; rfl
  · cases hx : firstInvalid (inputSeq s) 0 with
    | some ix => rw [decStart_invalid hl hx]; rfl
    | none => rw [decStart_ok hl (firstInvalid_none.mp hx)]; rfl

@[simp] theorem decLookup_config (s : State) : (decLookup s).config = s.config := by
  rw [decLookup]
  cases rev (decLoad s) <;> rfl

@[simp] theorem decArith_config (s : State) : (decArith s).config = s.config := by
  cases h : decNarrow s.config.ovfMode (decAcc s.d) with
  | none => rw [decArith_none h]; rfl
  | some v => rw [decArith_some h]; rfl

/-- The core's move in BUSY keeps the build. -/
theorem busyNext_config (s : State) : (busyNext s).config = s.config := by
  rw [busyNext]
  split
  · split
    · exact (encGroup_same s).config
    · rfl
  · split
    · split
      · exact decArith_config s
      · exact decLookup_config s
    · rfl

/-- START keeps the build, under both paces. -/
theorem startNext_config (s : State) : (startNext s).config = s.config := by
  rw [startNext]
  split
  · cases s.config.pace with
    | collapsed => exact (encRun_ends s).config
    | stepwise => exact encStart_config s
  · cases s.config.pace with
    | collapsed => exact (decRun_ends s).config
    | stepwise => exact decStart_config s

/-- Settles O45, by the cases of a step: only the core's move in BUSY and START are more than one record update. -/
theorem stepKeepsConfig : Obligations.StepKeepsConfig := by
  intro s t h
  cases stepTo_of_step h with
  | busy => exact busyNext_config s
  | start => exact startNext_config s
  | idle | await | reset | writeOp | writeLen | writeIbuf => rfl

end Sys2Proof.Machine
end

section
/-! The core's own moves, said once: what START does, what one move in BUSY does, and that an operation taken as one
transition is START followed by such moves (R155). So what START sets up and each move keeps, every step keeps. -/

namespace Sys2Proof.Machine

/-- What the core's move in BUSY can do to `s` (R155, R156). -/
inductive CoreMove (s : State) : State → Prop where
  /-- A group of ENCODE. -/
  | encGroup : s.op = 0#1 → s.gi < s.ng → CoreMove s (encGroup s)
  /-- DONE of ENCODE. -/
  | encDone : s.op = 0#1 → ¬s.gi < s.ng → CoreMove s (encDone s)
  /-- The look-up of a character that is a symbol. -/
  | takeSymbol (dg : Digit) : s.op ≠ 0#1 → s.gi < s.ng → s.slot ≠ 5 → rev (decLoad s) = some dg →
      CoreMove s (takeSymbol (decLoad s) dg s)
  /-- The look-up of a character that is none (R104). -/
  | noSymbol : s.op ≠ 0#1 → s.gi < s.ng → s.slot ≠ 5 → rev (decLoad s) = none →
      CoreMove s (raiseError (.invalidCharacter (charIndex s) (decLoad s)) s)
  /-- The arithmetic of a group whose value the mode accepts. -/
  | decArith (v : Word) : s.op ≠ 0#1 → s.gi < s.ng → s.slot = 5 →
      decNarrow s.config.ovfMode (decAcc s.d) = some v → CoreMove s (decArith s)
  /-- The arithmetic of a group whose value the mode refuses (R106). -/
  | overflow : s.op ≠ 0#1 → s.gi < s.ng → s.slot = 5 → decNarrow s.config.ovfMode (decAcc s.d) = none →
      CoreMove s (raiseError (.valueOverflow (5 * s.gi)) s)
  /-- DONE of DECODE. -/
  | decDone : s.op ≠ 0#1 → ¬s.gi < s.ng → CoreMove s (decDone s)

theorem coreMove_busyNext (s : State) : CoreMove s (busyNext s) := by
  rw [busyNext]
  split
  · split
    · exact .encGroup ‹_› ‹_›
    · exact .encDone ‹_› ‹_›
  · split
    · split
      · cases hv : decNarrow s.config.ovfMode (decAcc s.d) with
        | some v => exact .decArith v ‹_› ‹_› ‹_› hv
        | none => rw [decArith_none hv]; exact .overflow ‹_› ‹_› ‹_› hv
      · rw [decLookup]
        cases hr : rev (decLoad s) with
        | some dg => exact .takeSymbol dg ‹_› ‹_› ‹_› hr
        | none => exact .noSymbol ‹_› ‹_› ‹_› hr
    · exact .decDone ‹_› ‹_›

/-- What START alone can do to `s` (R154). -/
inductive StartTo (s : State) : State → Prop where
  /-- START of ENCODE. -/
  | encStart : s.op = 0#1 → StartTo s (encStart s)
  /-- START of DECODE with a malformed length (R102). -/
  | malformed : s.op ≠ 0#1 → s.inLen % 5 = 1 → StartTo s (raiseError (.malformedLength s.inLen) s.begin)
  /-- START of DECODE with a character that is no symbol (R104). -/
  | invalid (i : Nat) (x : Byte) : s.op ≠ 0#1 → s.inLen % 5 ≠ 1 → firstInvalid (inputSeq s) 0 = some (i, x) →
      StartTo s (raiseError (.invalidCharacter i x) (s.begin.setSizes (decPad s.inLen) (decGroupCount s.inLen)))
  /-- START of DECODE where both checks pass. -/
  | decBegun : s.op ≠ 0#1 → s.inLen % 5 ≠ 1 → ValidIn s → StartTo s (decBegun s)

theorem startTo_decStart {s : State} (hop : s.op ≠ 0#1) : StartTo s (decStart s) := by
  by_cases hl : s.inLen % 5 = 1
  · rw [decStart_malformed hl]; exact .malformed hop hl
  · cases hx : firstInvalid (inputSeq s) 0 with
    | some ix => rw [decStart_invalid hl hx]; exact .invalid ix.1 ix.2 hop hl hx
    | none =>
      have hv : ValidIn s := firstInvalid_none.mp hx
      rw [decStart_ok hl hv]; exact .decBegun hop hl hv

/-! ### An operation as one transition is START and the core's moves -/

/-- What a group of DECODE whose arithmetic does not raise leaves alone, and where it leads. -/
theorem decArith_next {s : State} {v : Word} (h : decNarrow s.config.ovfMode (decAcc s.d) = some v) :
    SameOutside s (decArith s) ∧ (decArith s).gi = s.gi + 1 ∧ (decArith s).slot = 0 := by
  rw [decArith_some h]
  refine ⟨?_, by simp, by simp⟩
  constructor <;> simp

theorem takeSymbol_slot_val {s : State} (h : s.slot.val < 5) (x : Byte) (dg : Digit) :
    (takeSymbol x dg s).slot.val = s.slot.val + 1 := by
  simp [takePlace_of_lt rfl h]

section
variable {P : State → Prop} (hmove : ∀ u v, P u → u.phase = .busy → CoreMove u v → P v)
include hmove

/-- The groups left of an ENCODE, and its DONE. -/
theorem encRest_keeps (n : Nat) {s : State} (h : P s) (hop : s.op = 0#1) (hn : s.gi + n = s.ng) :
    P (ifBusy encDone (whileBusy encGroup n s)) := by
  induction n generalizing s with
  | zero =>
    refine ifBusy_keeps (fun hb => hmove s _ h hb (.encDone hop ?_)) h
    omega
  | succ n ih =>
    rw [whileBusy]
    split
    · next hb =>
      refine ih (hmove s _ h hb (.encGroup hop ?_)) ?_ ?_
      · omega
      · rw [(encGroup_same s).op, hop]
      · rw [(encGroup_same s).ng, encGroup_gi]; omega
    · next hb => rwa [ifBusy, if_neg hb]

theorem encRun_keeps {s : State} (h : P (encStart s)) (hop : s.op = 0#1) : P (encRun s) :=
  encRest_keeps hmove _ h hop (Nat.zero_add _)

/-- The look-ups left of a group of symbols. -/
theorem lookups_keep (n : Nat) {s : State} (h : P s) (hop : s.op ≠ 0#1) (hg : s.gi < s.ng) (hv : ValidIn s)
    (hn : s.slot.val + n ≤ 5) : P (whileBusy decLookup n s) := by
  induction n generalizing s with
  | zero => exact h
  | succ n ih =>
    rw [whileBusy]
    split
    · next hb =>
      have hslot : s.slot ≠ 5 := fun h5 => by simp [h5] at hn
      have hrev := rev_decLoadSeq hv s.gi s.slot.val
      rw [← decLoad_eq] at hrev
      obtain ⟨hsame, hgi, -⟩ := takeSymbol_same (decLoad s) (digitAt (inputSeq s) s.gi s.slot.val) s
      rw [decLookup_valid hv]
      refine ih (hmove s _ h hb (.takeSymbol _ hop hg hslot hrev)) ?_ ?_ (hsame.valid hv) ?_
      · rwa [hsame.op]
      · rwa [hsame.ng, hgi]
      · rw [takeSymbol_slot_val (by omega)]; omega
    · exact h

/-- The groups left of a DECODE of symbols, and its DONE. -/
theorem decRest_keeps (n : Nat) {s : State} (h : P s) (hop : s.op ≠ 0#1) (hn : s.gi + n = s.ng) (hv : ValidIn s)
    (h0 : s.slot = 0) : P (ifBusy decDone (whileBusy decGroup n s)) := by
  induction n generalizing s with
  | zero =>
    refine ifBusy_keeps (fun hb => hmove s _ h hb (.decDone hop ?_)) h
    omega
  | succ n ih =>
    rw [whileBusy]
    split
    · next hb =>
      have hfull : s.slot.val + 5 = 5 := by rw [h0]; rfl
      have hu := lookups_keep hmove 5 h hop (by omega) hv (by omega)
      obtain ⟨hsame, hgi, -, -, -, hslot, -⟩ := lookups 5 s hb hv (by omega)
      have hbu := hsame.phase.trans hb
      rw [show decGroup s = decArith (whileBusy decLookup 5 s) from if_pos hbu]
      generalize whileBusy decLookup 5 s = u at hu hsame hgi hslot hbu
      have hopu : u.op ≠ 0#1 := hsame.op ▸ hop
      have hgu : u.gi < u.ng := by rw [hsame.ng, hgi]; omega
      have hslotu : u.slot = 5 := Fin.ext (by rw [hslot, hfull]; rfl)
      cases hw : decNarrow u.config.ovfMode (decAcc u.d) with
      | some v =>
        obtain ⟨hnext, hgi', hslot'⟩ := decArith_next hw
        refine ih (hmove u _ hu hbu (.decArith v hopu hgu hslotu hw)) ?_ ?_ ((hsame.trans hnext).valid hv) hslot'
        · rwa [hnext.op]
        · rw [hnext.ng, hsame.ng, hgi', hgi]; omega
      | none =>
        rw [decArith_none hw, whileBusy_idle _ _ _ (raiseError_phase ..)]
        exact hmove u _ hu hbu (.overflow hopu hgu hslotu hw)
    · next hb => rwa [ifBusy, if_neg hb]

theorem decRun_keeps {s : State} (h : P (decStart s)) (hop : s.op ≠ 0#1) : P (decRun s) := by
  have hstart := startTo_decStart hop
  rw [decRun]
  generalize decStart s = v at h hstart
  cases hstart with
  | encStart hop' => exact absurd hop' hop
  | malformed | invalid => rwa [whileBusy_idle _ _ _ rfl, ifBusy, if_neg (by simp)]
  | decBegun hop hl hv => exact decRest_keeps hmove _ h hop (Nat.zero_add _) hv rfl

/-- What START sets up and each move of the core keeps holds after START, under both paces. -/
theorem startNext_keeps {s : State} (hstart : ∀ v, StartTo s v → P v) : P (startNext s) := by
  rw [startNext]
  split
  · next hop =>
    cases s.config.pace with
    | collapsed => exact encRun_keeps hmove (hstart _ (.encStart hop)) hop
    | stepwise => exact hstart _ (.encStart hop)
  · next hop =>
    cases s.config.pace with
    | collapsed => exact decRun_keeps hmove (hstart _ (startTo_decStart hop)) hop
    | stepwise => exact hstart _ (startTo_decStart hop)

end

end Sys2Proof.Machine
end

section
/-! Every step keeps an operation in progress where its sequencing says (R15, R153 to R156). -/

namespace Sys2Proof.Machine

theorem sequenceInv_of_idle {s : State} (h : s.phase = .idle) : SequenceInv s :=
  fun hb => absurd (h.symm.trans hb) (by decide)

/-- What SequenceInv says of an ENCODE in progress. -/
theorem sequenceInv_encode {s : State} (hb : s.phase = .busy) (hop : s.op = 0#1) :
    SequenceInv s ↔
      s.done = false ∧ lengthAllowed s.config.maxLen s.inLen = true ∧ s.gi ≤ s.ng ∧ EncodeUnderWay s := by
  simp [SequenceInv, hb, hop]

/-- What SequenceInv says of a DECODE in progress. -/
theorem sequenceInv_decode {s : State} (hb : s.phase = .busy) (hop : s.op ≠ 0#1) :
    SequenceInv s ↔
      s.done = false ∧ lengthAllowed s.config.maxLen s.inLen = true ∧ s.gi ≤ s.ng ∧ DecodeUnderWay s := by
  simp only [SequenceInv, hb, true_implies, if_neg hop]

/-- A group step of ENCODE goes on to the next group. -/
theorem sequenceInv_encGroup {s : State} (h : SequenceInv s) (hb : s.phase = .busy) (hop : s.op = 0#1)
    (hg : s.gi < s.ng) : SequenceInv (encGroup s) := by
  have hsame := encGroup_same s
  obtain ⟨hdone, hlen, -, hpad, hng, -⟩ := (sequenceInv_encode hb hop).mp h
  rw [sequenceInv_encode (hsame.phase.trans hb) (hsame.op.trans hop), EncodeUnderWay, encGroup_slot, encGroup_gi,
    hsame.done, hsame.config, hsame.inLen, hsame.pad, hsame.ng]
  exact ⟨hdone, hlen, hg, hpad, hng, rfl⟩

/-- The arithmetic of a group of DECODE goes on to the next group, of which no character is looked up. -/
theorem sequenceInv_decArith {s : State} {v : Word} (h : SequenceInv s) (hb : s.phase = .busy) (hop : s.op ≠ 0#1)
    (hg : s.gi < s.ng) (hv : decNarrow s.config.ovfMode (decAcc s.d) = some v) : SequenceInv (decArith s) := by
  obtain ⟨hsame, hgi, hslot⟩ := decArith_next hv
  obtain ⟨hdone, hlen, -, hmod, hvalid, hpad, hng, -, -⟩ := (sequenceInv_decode hb hop).mp h
  rw [sequenceInv_decode (hsame.phase.trans hb) (hsame.op ▸ hop), DecodeUnderWay, hslot, hgi, hsame.input,
    hsame.done, hsame.config, hsame.inLen, hsame.pad, hsame.ng]
  exact ⟨hdone, hlen, hg, hmod, hvalid, hpad, hng, fun h0 => absurd rfl h0,
    fun k hk => absurd hk (Nat.not_lt_zero _)⟩

/-- The look-up of character `slot` leaves it in `c[slot]` and its digit in `d[slot]`, and the characters before it
stay where they are. -/
theorem takeSymbol_lookedUp {s : State} {dg : Digit} (hlt : s.slot.val < 5) (hr : rev (decLoad s) = some dg)
    (h : ∀ k : Fin 5, k.val < s.slot.val →
      s.c[k.val] = decLoadSeq (inputSeq s) s.gi k.val ∧ rev s.c[k.val] = some s.d[k.val]) :
    ∀ k : Fin 5, k.val < s.slot.val + 1 →
      (takeSymbol (decLoad s) dg s).c[k.val] = decLoadSeq (inputSeq s) s.gi k.val ∧
        rev (takeSymbol (decLoad s) dg s).c[k.val] = some (takeSymbol (decLoad s) dg s).d[k.val] := by
  intro k hk
  have hplace := takePlace_of_lt rfl hlt
  simp only [takeSymbol_c, takeSymbol_d, hplace, Vector.getElem_set]
  rcases Nat.lt_succ_iff_lt_or_eq.mp hk with hbefore | hnow
  · rw [if_neg (Nat.ne_of_gt hbefore), if_neg (Nat.ne_of_gt hbefore)]
    exact h k hbefore
  · rw [if_pos hnow.symm, if_pos hnow.symm, hnow]
    exact ⟨decLoad_eq s, hr⟩

/-- The look-up of a symbol goes on to the next place of the group. -/
theorem sequenceInv_takeSymbol {s : State} {dg : Digit} (h : SequenceInv s) (hb : s.phase = .busy)
    (hop : s.op ≠ 0#1) (hg : s.gi < s.ng) (hslot : s.slot ≠ 5) (hr : rev (decLoad s) = some dg) :
    SequenceInv (takeSymbol (decLoad s) dg s) := by
  have hlt : s.slot.val < 5 := by omega
  obtain ⟨hsame, hgi, -⟩ := takeSymbol_same (decLoad s) dg s
  obtain ⟨hdone, hlen, hle, hmod, hvalid, hpad, hng, -, hchars⟩ := (sequenceInv_decode hb hop).mp h
  rw [sequenceInv_decode (hsame.phase.trans hb) (hsame.op ▸ hop), DecodeUnderWay, takeSymbol_slot_val hlt, hgi,
    hsame.input, hsame.done, hsame.config, hsame.inLen, hsame.pad, hsame.ng]
  exact ⟨hdone, hlen, hle, hmod, hvalid, hpad, hng, fun _ => hg, takeSymbol_lookedUp hlt hr hchars⟩

/-- The core's moves keep the sequencing: a group and a look-up go on in BUSY, DONE and an error end in IDLE. -/
theorem sequenceInv_of_coreMove (s t : State) (h : SequenceInv s) (hb : s.phase = .busy)
    (hmove : CoreMove s t) : SequenceInv t := by
  cases hmove with
  | encGroup hop hg => exact sequenceInv_encGroup h hb hop hg
  | takeSymbol dg hop hg hslot hr => exact sequenceInv_takeSymbol h hb hop hg hslot hr
  | decArith v hop hg hslot hv => exact sequenceInv_decArith h hb hop hg hv
  | encDone | noSymbol | overflow | decDone => exact sequenceInv_of_idle rfl

/-- START begins either operation in sequence. -/
theorem sequenceInv_of_startTo {s t : State} (hlen : lengthAllowed s.config.maxLen s.inLen = true)
    (hstart : StartTo s t) : SequenceInv t := by
  cases hstart with
  | encStart hop =>
    exact (sequenceInv_encode (s := encStart s) rfl hop).mpr ⟨rfl, hlen, Nat.zero_le _, rfl, rfl, rfl⟩
  | malformed | invalid => exact sequenceInv_of_idle rfl
  | decBegun hop hl hv =>
    exact (sequenceInv_decode (s := decBegun s) rfl hop).mpr ⟨rfl, hlen, Nat.zero_le _, hl,
      firstInvalid_none.mpr hv, rfl, rfl, fun h0 => absurd rfl h0, fun k hk => absurd hk (Nat.not_lt_zero _)⟩

/-- Settles O55: START begins an operation in sequence, the core's moves keep it there, and everything else happens
in IDLE or ends there. -/
theorem stepKeepsSequencing : Obligations.StepKeepsSequencing := by
  intro s t hinv h
  cases stepTo_of_step h with
  | busy hb => exact sequenceInv_of_coreMove s _ hinv hb (coreMove_busyNext s)
  | start rest hh hready =>
    obtain ⟨-, hlen⟩ := hready
    exact startNext_keeps sequenceInv_of_coreMove fun v hv => sequenceInv_of_startTo hlen hv
  | idle hi | await rest hi | writeOp v rest hi | writeLen n rest hi | writeIbuf i v rest hi =>
    exact sequenceInv_of_idle hi
  | reset => exact sequenceInv_of_idle rfl

end Sys2Proof.Machine
end

section
/-! Every step keeps the result registers in agreement once an operation has completed (R17, R133, R19). -/

namespace Sys2Proof.Machine

theorem resultInv_of_notDone {s : State} (h : s.done = false) : ResultInv s :=
  fun hd => absurd (h.symm.trans hd) (by decide)

/-- The working registers of a group are no result registers. -/
theorem SameOutside.resultInv {s t : State} (h : SameOutside s t) (hs : ResultInv s) : ResultInv t := by
  rwa [ResultInv, h.done, h.status, h.outLen, h.config]

theorem resultInv_signalDone (n : Nat) (s : State) : ResultInv (signalDone n s) :=
  fun _ => ⟨fun h => absurd rfl h, fun h => by cases h⟩

/-- An error leaves OUT_LEN 0; of the errors only ValueOverflow depends on the mode. -/
theorem resultInv_raiseError {e : Err} {s : State} (h : errStatus e = .valueOverflow → s.config.ovfMode = .fault) :
    ResultInv (raiseError e s) :=
  fun _ => ⟨fun _ => rfl, h⟩

/-- DEC.NARROW raises only in the mode fault. -/
theorem fault_of_decNarrow {m : OvfMode} {a : Nat} (h : decNarrow m a = none) : m = .fault := by
  cases m with
  | fault => rfl
  | wrap => rw [decNarrow_some (.inl rfl)] at h; cases h

theorem resultInv_of_coreMove (s t : State) (h : ResultInv s) (_ : s.phase = .busy) (hmove : CoreMove s t) :
    ResultInv t := by
  cases hmove with
  | encGroup => exact (encGroup_same s).resultInv h
  | takeSymbol dg => exact (takeSymbol_same _ dg s).1.resultInv h
  | decArith v hop hg hslot hv => exact (decArith_next hv).1.resultInv h
  | noSymbol => exact resultInv_raiseError fun hs => by cases hs
  | overflow hop hg hslot hv => exact resultInv_raiseError fun _ => fault_of_decNarrow hv
  | encDone | decDone => exact resultInv_signalDone _ s

theorem resultInv_of_startTo {s t : State} (hstart : StartTo s t) : ResultInv t := by
  cases hstart with
  | encStart | decBegun => exact resultInv_of_notDone rfl
  | malformed | invalid => exact resultInv_raiseError fun hs => by cases hs

/-- Settles O54: DONE after success has STATUS 0, an error has OUT_LEN 0 and raises code 3 in the mode fault only, and
nothing else writes a result register before START or reset takes DONE back. -/
theorem stepKeepsResultRegisters : Obligations.StepKeepsResultRegisters := by
  intro s t hinv h
  cases stepTo_of_step h with
  | busy hb => exact resultInv_of_coreMove s _ hinv hb (coreMove_busyNext s)
  | start => exact startNext_keeps resultInv_of_coreMove fun v hv => resultInv_of_startTo hv
  | reset => exact resultInv_of_notDone rfl
  | idle | await | writeOp | writeLen | writeIbuf => exact hinv

end Sys2Proof.Machine
end

section
/-! Every step keeps the length registers within LEN_BITS bits (R5, R14, R15, R17): no counter wraps. -/

namespace Sys2Proof.Machine

/-! ### What fits LEN_BITS bits -/

theorem fitsLen_mono {w : Option Nat} {n k : Nat} (h : fitsLen w n = true) (hk : k ≤ n) : fitsLen w k = true := by
  cases w with
  | none => rfl
  | some w => exact decide_eq_true (Nat.lt_of_le_of_lt hk (of_decide_eq_true h))

theorem fitsLen_zero (w : Option Nat) : fitsLen w 0 = true := by
  cases w with
  | none => rfl
  | some w => exact decide_eq_true (Nat.two_pow_pos w)

theorem fitsLen_cutLen (w : Option Nat) (n : Nat) : fitsLen w (cutLen w n) = true := by
  cases w with
  | none => rfl
  | some w => exact decide_eq_true (Nat.mod_lt n (Nat.two_pow_pos w))

/-- The length of the encoding of an input that the build accepts fits LEN_BITS bits (R5). -/
theorem fitsLen_encTrunc {cfg : Config} {n : Nat} (hwf : cfg.wf = true) (hn : lengthAllowed cfg.maxLen n = true) :
    fitsLen cfg.lenBits (encTrunc (encGroupCount n) (encPad n)) = true := by
  have hlen : encTrunc (encGroupCount n) (encPad n) ≤ (5 * n + 3) / 4 := by
    rw [encTrunc, encPad_val, encGroupCount_eq]; omega
  cases hw : cfg.lenBits with
  | none => rfl
  | some w =>
    cases hm : cfg.maxLen with
    | none => simp [Config.wf, hm, hw] at hwf
    | some m =>
      simp only [Config.wf, hm, hw, decide_eq_true_eq] at hwf
      simp only [lengthAllowed, hm, decide_eq_true_eq] at hn
      exact decide_eq_true (by omega)

theorem encGroupCount_le (n : Nat) : encGroupCount n ≤ n := by rw [encGroupCount_eq]; omega

theorem decGroupCount_le (l : Nat) : decGroupCount l ≤ l := by rw [decGroupCount_eq]; omega

theorem decTrunc_le (l : Nat) : decTrunc (decGroupCount l) (decPad l) ≤ l := by
  rw [decTrunc, decPad_val, decGroupCount_eq]; omega

/-- The first character of a group of DECODE lies in the text. -/
theorem groupStart_lt {g l : Nat} (h : g < decGroupCount l) : 5 * g < l := by rw [decGroupCount_eq] at h; omega

/-- The validation pass names an index of the text. -/
theorem firstInvalid_lt {text : List Byte} {i j : Nat} {x : Byte} (h : firstInvalid text j = some (i, x)) :
    i < j + text.length := by
  induction text generalizing j with
  | nil => cases h
  | cons y rest ih =>
    rw [firstInvalid] at h
    rw [List.length_cons]
    split at h
    · cases h; omega
    · have := ih h; omega

/-! ### What ends an operation -/

/-- The index an error names, if any (R131, R133). -/
def errIndex : Err → Option Nat
  | .invalidCharacter i _ => some i
  | .valueOverflow i => some i
  | .malformedLength _ => none

theorem fitsLen_errIdxAfter {cfg : Config} {e? : Option Err} (hinfo : cfg.errInfo = .indexAndChar)
    (now draw : Nat) (h : ∀ i, e?.bind errIndex = some i → fitsLen cfg.lenBits i = true) :
    fitsLen cfg.lenBits (errIdxAfter cfg now draw e?) = true := by
  rcases e? with _ | ⟨i, x⟩ | len | i <;> simp only [errIdxAfter, hinfo]
  · exact fitsLen_cutLen _ _
  · exact h i rfl
  · exact fitsLen_cutLen _ _
  · exact h i rfl

/-- DONE with a result length that fits. -/
theorem widthInv_signalDone {n : Nat} {s : State} (h : WidthInv s) (hn : fitsLen s.config.lenBits n = true) :
    WidthInv (signalDone n s) := by
  obtain ⟨hin, hgi, hng, -⟩ := h
  refine ⟨hin, hgi, hng, fun _ => ⟨hn, fun hinfo => ?_⟩⟩
  rw [signalDone_errIdx]
  exact fitsLen_errIdxAfter hinfo _ _ nofun

/-- An error whose index, if it names one, lies in the input. -/
theorem widthInv_raiseError {e : Err} {s : State} (h : WidthInv s) (he : ∀ i, errIndex e = some i → i < s.inLen) :
    WidthInv (raiseError e s) := by
  obtain ⟨hin, hgi, hng, -⟩ := h
  refine ⟨hin, hgi, hng, fun _ => ⟨fitsLen_zero _, fun hinfo => ?_⟩⟩
  rw [raiseError_errIdx]
  exact fitsLen_errIdxAfter hinfo _ _ fun i hi => fitsLen_mono hin (he i hi).le

/-! ### The moves of the core -/

/-- In sequence, the character a DECODE looks up is a symbol. -/
theorem rev_decLoad_of_sequenceInv {s : State} (h : SequenceInv s) (hb : s.phase = .busy) (hop : s.op ≠ 0#1) :
    rev (decLoad s) = some (digitAt (inputSeq s) s.gi s.slot.val) := by
  obtain ⟨-, -, -, -, hvalid, -⟩ := (sequenceInv_decode hb hop).mp h
  rw [decLoad_eq]
  exact rev_decLoadSeq (firstInvalid_none.mp hvalid) _ _

/-- The counter of groups goes on within the number of groups. -/
theorem widthInv_nextGroup {s t : State} (h : WidthInv s) (hsame : SameOutside s t) (hgi : t.gi = s.gi + 1)
    (hg : s.gi < s.ng) : WidthInv t := by
  obtain ⟨hin, -, hng, hres⟩ := h
  rw [WidthInv, hsame.config, hsame.inLen, hgi, hsame.ng, hsame.done, hsame.outLen, hsame.errIdx]
  exact ⟨hin, fitsLen_mono hng hg, hng, hres⟩

theorem widthInv_of_coreMove {s t : State} (hwf : s.config.wf = true) (hseq : SequenceInv s) (h : WidthInv s)
    (hb : s.phase = .busy) (hmove : CoreMove s t) : WidthInv t := by
  cases hmove with
  | encGroup hop hg => exact widthInv_nextGroup h (encGroup_same s) (encGroup_gi s) hg
  | encDone hop hg =>
    obtain ⟨-, hlen, -, hpad, hng, -⟩ := (sequenceInv_encode hb hop).mp hseq
    refine widthInv_signalDone h ?_
    rw [hpad, hng]
    exact fitsLen_encTrunc hwf hlen
  | takeSymbol => exact h
  | noSymbol hop hg hslot hr =>
    rw [rev_decLoad_of_sequenceInv hseq hb hop] at hr
    cases hr
  | decArith v hop hg hslot hv =>
    obtain ⟨hsame, hgi, -⟩ := decArith_next hv
    exact widthInv_nextGroup h hsame hgi hg
  | overflow hop hg =>
    obtain ⟨-, -, -, -, -, -, hng, -⟩ := (sequenceInv_decode hb hop).mp hseq
    refine widthInv_raiseError h fun i hi => ?_
    cases hi
    exact groupStart_lt (hng ▸ hg)
  | decDone hop hg =>
    obtain ⟨-, -, -, -, -, hpad, hng, -⟩ := (sequenceInv_decode hb hop).mp hseq
    refine widthInv_signalDone h ?_
    rw [hpad, hng]
    obtain ⟨hin, -⟩ := h
    exact fitsLen_mono hin (decTrunc_le _)

/-- START writes no more groups into `ng` than the input has elements, and 0 into `gi` or nothing. -/
theorem widthInv_of_startTo {s t : State} (h : WidthInv s) (hstart : StartTo s t) : WidthInv t := by
  obtain ⟨hin, hgi, hng, -⟩ := h
  cases hstart with
  | encStart => exact ⟨hin, fitsLen_zero _, fitsLen_mono hin (encGroupCount_le _), nofun⟩
  | malformed => exact widthInv_raiseError ⟨hin, hgi, hng, nofun⟩ nofun
  | invalid i x hop hl hx =>
    refine widthInv_raiseError ⟨hin, hgi, fitsLen_mono hin (decGroupCount_le _), nofun⟩ fun j hj => ?_
    cases hj
    have hlt := firstInvalid_lt hx
    rwa [Nat.zero_add, inputSeq_length] at hlt
  | decBegun => exact ⟨hin, fitsLen_zero _, fitsLen_mono hin (decGroupCount_le _), nofun⟩

/-- What an operation keeps from START to DONE so that its lengths fit: the build, its sequencing, the widths. -/
def FitsInSequence (s : State) : Prop := s.config.wf = true ∧ SequenceInv s ∧ WidthInv s

theorem coreMove_config {s t : State} (h : CoreMove s t) : t.config = s.config := by
  cases h with
  | encGroup => exact (encGroup_same s).config
  | decArith => exact decArith_config s
  | encDone | takeSymbol | noSymbol | overflow | decDone => rfl

theorem fitsInSequence_of_coreMove (s t : State) (h : FitsInSequence s) (hb : s.phase = .busy)
    (hmove : CoreMove s t) : FitsInSequence t := by
  obtain ⟨hwf, hseq, hw⟩ := h
  exact ⟨(coreMove_config hmove).symm ▸ hwf, sequenceInv_of_coreMove s t hseq hb hmove,
    widthInv_of_coreMove hwf hseq hw hb hmove⟩

theorem startTo_config {s t : State} (h : StartTo s t) : t.config = s.config := by
  cases h with
  | encStart | malformed | invalid | decBegun => rfl

/-- An operation, from START to where the step leaves it, keeps the widths. -/
theorem widthInv_startNext {s : State} (hwf : s.config.wf = true) (hready : Ready s) (h : WidthInv s) :
    WidthInv (startNext s) := by
  obtain ⟨-, hlen⟩ := hready
  have hfits : FitsInSequence (startNext s) := startNext_keeps fitsInSequence_of_coreMove fun v hv =>
    ⟨(startTo_config hv).symm ▸ hwf, sequenceInv_of_startTo hlen hv, widthInv_of_startTo h hv⟩
  obtain ⟨-, -, hw⟩ := hfits
  exact hw

/-- Settles O56: `gi` counts no further than `ng`, `ng` and every index an error names are at most IN_LEN, and the
length of a result is at most that of the longest encoding, for which LEN_BITS is enough. -/
theorem stepKeepsWidths : Obligations.StepKeepsWidths := by
  intro s t hwf hseq hw h
  cases stepTo_of_step h with
  | busy hb => exact widthInv_of_coreMove hwf hseq hw hb (coreMove_busyNext s)
  | start rest hh hready => exact widthInv_startNext hwf hready hw
  | reset => exact ⟨fitsLen_zero _, fitsLen_zero _, fitsLen_zero _, nofun⟩
  | writeLen n rest hi hh hn =>
    obtain ⟨-, hgi, hng, hres⟩ := hw
    exact ⟨hn, hgi, hng, hres⟩
  | idle | await | writeOp | writeIbuf => exact hw

end Sys2Proof.Machine
end

section
/-! The form of the buffers: a store keeps OBUF in form and in its draw, everything else that an operation does to OBUF
gives it a draw of its own (R30, R32, R33). -/

namespace Sys2Proof.Machine

/-- What the arithmetic of a group of DECODE stores where it does not raise. -/
theorem decArith_obuf {s : State} {v : Word} (h : decNarrow s.config.ovfMode (decAcc s.d) = some v) :
    (decArith s).obuf = s.obuf.writeSeq (4 * s.gi) (decUnpack v).toList := by
  rw [decArith_some h]; simp

/-- A store to OBUF keeps the buffers' form. -/
theorem memoryInv_of_store {s t : State} {i : Nat} {xs : List Byte} (hsame : SameOutside s t)
    (hobuf : t.obuf = s.obuf.writeSeq i xs) (h : MemoryInv s) : MemoryInv t := by
  obtain ⟨hiwf, howf, hcap, hidraw, hodraw, hapart⟩ := h
  rw [MemoryInv, hsame.ibuf, hsame.config, hsame.fresh, hobuf, writeSeq_gen]
  exact ⟨hiwf, writeSeq_wf xs howf i, hcap, hidraw, hodraw, hapart⟩

/-- OBUF in form and of the next draw keeps the buffers' form: every draw in use is an earlier one. -/
theorem memoryInv_of_newDraw {s t : State} (hconfig : t.config = s.config) (hibuf : t.ibuf = s.ibuf)
    (hfresh : t.fresh = s.fresh + 1) (hgen : t.obuf.gen = s.fresh) (hwf : t.obuf.wf) (h : MemoryInv s) :
    MemoryInv t := by
  obtain ⟨hiwf, -, hcap, hidraw, -⟩ := h
  rw [MemoryInv, hibuf, hconfig, hfresh, hgen]
  exact ⟨hiwf, hwf, hcap, Nat.lt_succ_of_lt hidraw, Nat.lt_succ_self _, Nat.ne_of_lt hidraw⟩

theorem memoryInv_begin {s : State} (h : MemoryInv s) : MemoryInv s.begin :=
  memoryInv_of_newDraw (s := s) rfl rfl rfl rfl (unspecified_wf _) h

theorem memoryInv_signalDone (n : Nat) {s : State} (h : MemoryInv s) : MemoryInv (signalDone n s) := by
  have ⟨_, howf, _⟩ := h
  exact memoryInv_of_newDraw (s := s) rfl rfl rfl rfl (truncate_wf howf n s.fresh) h

theorem memoryInv_raiseError (e : Err) {s : State} (h : MemoryInv s) : MemoryInv (raiseError e s) :=
  memoryInv_of_newDraw (s := s) rfl rfl rfl rfl (unspecified_wf _) h

theorem memoryInv_of_coreMove (s t : State) (h : MemoryInv s) (_ : s.phase = .busy) (hmove : CoreMove s t) :
    MemoryInv t := by
  cases hmove with
  | encGroup => exact memoryInv_of_store (encGroup_same s) (encGroup_obuf s) h
  | decArith v hop hg hslot hv =>
    obtain ⟨hsame, -⟩ := decArith_next hv
    exact memoryInv_of_store hsame (decArith_obuf hv) h
  | takeSymbol => exact h
  | noSymbol | overflow => exact memoryInv_raiseError _ h
  | encDone | decDone => exact memoryInv_signalDone _ h

/-- START gives OBUF a new draw, and an error at START one more. -/
theorem memoryInv_of_startTo {s t : State} (h : MemoryInv s) (hstart : StartTo s t) : MemoryInv t := by
  have hbegin := memoryInv_begin h
  cases hstart with
  | encStart | decBegun => exact hbegin
  | malformed => exact memoryInv_raiseError _ hbegin
  | invalid i x =>
    exact memoryInv_raiseError (s := s.begin.setSizes (decPad s.inLen) (decGroupCount s.inLen)) _ hbegin

/-- A host write to an element that IBUF has. -/
theorem memoryInv_writeIbuf {s : State} {i : Nat} (v : Byte) (rest : List HostMove) (h : MemoryInv s)
    (hi : hasElement s.config.maxLen i = true) :
    MemoryInv { s with ibuf := s.ibuf.write i v, host := rest } := by
  obtain ⟨hiwf, howf, hcap, hdraws⟩ := h
  refine ⟨write_wf hiwf i v, howf, fun cell hcell => ?_, hdraws⟩
  rcases mem_insertCell hcell with rfl | hold
  · exact hi
  · exact hcap cell hold

/-- The reset event takes two draws, one for each buffer. -/
theorem memoryInv_resetEvent (s : State) : MemoryInv (resetEvent s) := by
  refine ⟨unspecified_wf _, unspecified_wf _, nofun, ?_, ?_, ?_⟩
  · show s.fresh < s.fresh + 2; omega
  · show s.fresh + 1 < s.fresh + 2; omega
  · show s.fresh ≠ s.fresh + 1; omega

/-- Settles O53: the core stores in OBUF or gives it a new draw, the host writes elements that IBUF has, and reset draws
both buffers anew. -/
theorem stepKeepsMemoryForm : Obligations.StepKeepsMemoryForm := by
  intro s t hinv h
  cases stepTo_of_step h with
  | busy hb => exact memoryInv_of_coreMove s _ hinv hb (coreMove_busyNext s)
  | start => exact startNext_keeps memoryInv_of_coreMove fun v hv => memoryInv_of_startTo hinv hv
  | reset => exact memoryInv_resetEvent _
  | writeIbuf i v rest hidle hh hi => exact memoryInv_writeIbuf v rest hinv hi
  | idle | await | writeOp | writeLen => exact hinv

end Sys2Proof.Machine
end

section
/-! What the commands leave unchanged: of an operation that has ended, and of one that has only begun (R33, R134). -/

namespace Sys2Proof.Machine

theorem errIdxAfter_noInfo {cfg : Config} (h : cfg.errInfo = .noInfo) (now draw : Nat) (e? : Option Err) :
    errIdxAfter cfg now draw e? = now := by
  simp only [errIdxAfter, h]

theorem errCharAfter_noInfo {cfg : Config} (h : cfg.errInfo = .noInfo) (now : Byte) (draw : Nat) (e? : Option Err) :
    errCharAfter cfg now draw e? = now := by
  simp only [errCharAfter, h]

/-- What every command leaves alone, whether its operation has ended or only begun. -/
structure CommandKeeps (s t : State) : Prop where
  config : t.config = s.config
  op : t.op = s.op
  inLen : t.inLen = s.inLen
  host : t.host = dropStart s.host
  ibuf : t.ibuf = s.ibuf
  errors : s.config.errInfo = .noInfo → t.errIdx = s.errIdx ∧ t.errChar = s.errChar

/-- Where a command can leave the core. -/
inductive CommandTo (s : State) : State → Prop where
  /-- The operation has ended. -/
  | ended {r : Except Err (List Byte)} {t : State} : Ends s r t → CommandTo s t
  /-- The operation has only begun (PACE stepwise). -/
  | begun (pad : Fin 5) (ng : Nat) : CommandTo s (s.begin.setSizes pad ng).firstGroup

/-- START of DECODE begins the operation, or ends it with an error. -/
theorem commandTo_decStart (s : State) : CommandTo s (decStart s) := by
  by_cases hl : s.inLen % 5 = 1
  · rw [decStart_malformed hl]
    exact .ended (.failure _ (by constructor <;> rfl))
  · cases hx : firstInvalid (inputSeq s) 0 with
    | some ix =>
      rw [decStart_invalid hl hx]
      exact .ended (.failure _ (by constructor <;> rfl))
    | none =>
      rw [decStart_ok hl (firstInvalid_none.mp hx)]
      exact .begun _ _

/-- A command that answers ends its operation or begins it. -/
theorem commandTo_of_exec {i : Instr} {s t : State} (hi : i = .cmdEncode ∨ i = .cmdDecode)
    (h : exec i s = .next t) : CommandTo s t := by
  have hready := ready_of_command hi h
  rcases hi with rfl | rfl
  · rw [exec_encode hready] at h
    cases hp : s.config.pace with
    | collapsed => rw [hp] at h; cases h; exact .ended (encRun_ends s)
    | stepwise => rw [hp] at h; cases h; exact .begun _ _
  · rw [exec_decode hready] at h
    cases hp : s.config.pace with
    | collapsed => rw [hp] at h; cases h; exact .ended (decRun_ends s)
    | stepwise => rw [hp] at h; cases h; exact commandTo_decStart s

/-- An operation keeps what it began with until it ends. -/
theorem Begun.keeps {s u : State} (h : Begun s u) : CommandKeeps s u := by
  have hsame : SameOutside (s.begin.setSizes u.pad u.ng) u := h
  exact ⟨hsame.config, hsame.op, hsame.inLen, hsame.host, hsame.ibuf, fun _ => ⟨hsame.errIdx, hsame.errChar⟩⟩

/-- Where the two diagnostic registers are absent, no end of an operation writes them (R17). -/
theorem CommandKeeps.errorsAfter {s u : State} (h : CommandKeeps s u) (draw : Nat) (e? : Option Err)
    (hinfo : s.config.errInfo = .noInfo) :
    errIdxAfter u.config u.errIdx draw e? = s.errIdx ∧ errCharAfter u.config u.errChar draw e? = s.errChar := by
  have hinfo' : u.config.errInfo = .noInfo := h.config ▸ hinfo
  rw [errIdxAfter_noInfo hinfo', errCharAfter_noInfo hinfo']
  exact h.errors hinfo

theorem CommandKeeps.signalDone {s u : State} (h : CommandKeeps s u) (n : Nat) :
    CommandKeeps s (signalDone n u) :=
  ⟨h.config, h.op, h.inLen, h.host, h.ibuf, h.errorsAfter u.fresh none⟩

theorem CommandKeeps.raiseError {s u : State} (h : CommandKeeps s u) (e : Err) :
    CommandKeeps s (raiseError e u) :=
  ⟨h.config, h.op, h.inLen, h.host, h.ibuf, h.errorsAfter u.fresh (some e)⟩

theorem CommandTo.keeps {s t : State} (h : CommandTo s t) : CommandKeeps s t := by
  cases h with
  | ended hends =>
    cases hends with
    | success xs n hu => exact hu.keeps.signalDone n
    | failure e hu => exact hu.keeps.raiseError e
  | begun => exact ⟨rfl, rfl, rfl, rfl, rfl, fun _ => ⟨rfl, rfl⟩⟩

/-- No element of OBUF at OUT_LEN or above is specified when an operation has ended (R32, R134). -/
theorem Ends.unspecified_above {s t : State} {r : Except Err (List Byte)} (h : Ends s r t) {a : Nat}
    (ha : t.outLen ≤ a) : lookupCell t.obuf.cells a = none := by
  cases h with
  | success xs n => exact lookup_truncated _ _ _ _ ha
  | failure => rfl

theorem Ends.phase {s t : State} {r : Except Err (List Byte)} (h : Ends s r t) : t.phase = .idle := by
  cases h <;> rfl

/-- Settles O30, by where a command can leave the core: an operation that has ended, by DONE or by an error, or one that
has only begun. -/
theorem commandFrame : Obligations.CommandFrame := by
  intro i s t hi h
  have hto := commandTo_of_exec hi h
  have hkeeps := hto.keeps
  refine ⟨hkeeps.config, hkeeps.op, hkeeps.inLen, hkeeps.host, fun a => by rw [hkeeps.ibuf], hkeeps.errors, ?_⟩
  cases hto with
  | ended hends =>
    exact ⟨fun _ a ha => hends.unspecified_above ha, fun hb => absurd (hends.phase.symm.trans hb) (by decide)⟩
  | begun =>
    exact ⟨fun hidle => absurd hidle (by simp), fun _ => ⟨rfl, rfl, rfl, rfl, rfl, rfl, rfl, rfl⟩⟩

end Sys2Proof.Machine
end

section
/-! The core never writes IBUF and never reads OBUF (R33). -/

namespace Sys2Proof.Machine

/-! ### IBUF is not written -/

theorem coreMove_ibuf {s t : State} (h : CoreMove s t) : t.ibuf = s.ibuf := by
  cases h with
  | encGroup => exact (encGroup_same s).ibuf
  | decArith v hop hg hslot hv => exact (decArith_next hv).1.ibuf
  | encDone | takeSymbol | noSymbol | overflow | decDone => rfl

theorem startTo_ibuf {s t : State} (h : StartTo s t) : t.ibuf = s.ibuf := by
  cases h with
  | encStart | malformed | invalid | decBegun => rfl

/-- START keeps IBUF, under both paces. -/
theorem startNext_ibuf (s : State) : (startNext s).ibuf = s.ibuf :=
  startNext_keeps (P := fun u => u.ibuf = s.ibuf) (fun _ _ hu _ hmove => (coreMove_ibuf hmove).trans hu)
    fun _ hv => startTo_ibuf hv

/-! ### What is done to a buffer without reading it -/

/-- `g` leaves in the touched elements what does not depend on the buffer, and keeps every other element. -/
def Touches (touched : Nat → Bool) (g : Buffer → Buffer) : Prop :=
  ∀ m o a, lookupCell (g o).cells a = if touched a then lookupCell (g m).cells a else lookupCell o.cells a

theorem touches_writeSeq (i : Nat) (xs : List Byte) :
    Touches (fun a => decide (i ≤ a ∧ a < i + xs.length)) (fun o => o.writeSeq i xs) := by
  intro m o a
  by_cases h : i ≤ a ∧ a < i + xs.length <;> simp [lookupCell_writeSeq, h]

theorem touches_truncate (n draw : Nat) :
    Touches (fun a => decide (n ≤ a)) (fun o => o.truncate n draw) := by
  intro m o a
  by_cases h : a < n
  · simp [Buffer.truncate, lookupCell_filter, h, Nat.not_le.mpr h]
  · simp [Buffer.truncate, lookupCell_filter, h, Nat.le_of_not_lt h]

theorem touches_const (o' : Buffer) : Touches (fun _ => true) (fun _ => o') := fun _ _ _ => rfl

theorem touches_id : Touches (fun _ => false) id := fun _ _ _ => rfl

/-! ### Moves that do not read OBUF -/

/-- In `s` the move `f` does the same outside OBUF whatever OBUF holds, and does not read what it does to OBUF from
there. -/
def IgnoresObuf (f : State → State) (s : State) : Prop :=
  ∃ g touched, (∀ o, f { s with obuf := o } = { f s with obuf := g o }) ∧ Touches touched g

/-- A move whose condition is the same whatever OBUF holds. -/
theorem IgnoresObuf.ite {c : State → Prop} [DecidablePred c] {f g : State → State} {s : State}
    (hc : ∀ o, c { s with obuf := o } ↔ c s) (hf : c s → IgnoresObuf f s) (hg : ¬c s → IgnoresObuf g s) :
    IgnoresObuf (fun u => if c u then f u else g u) s := by
  by_cases h : c s
  · simpa only [IgnoresObuf, hc, h, if_true] using hf h
  · simpa only [IgnoresObuf, hc, h, if_false] using hg h

/-- A move that replaces OBUF. -/
theorem ignoresObuf_of_replace {f : State → State} {s : State} (h : ∀ o, f { s with obuf := o } = f s) :
    IgnoresObuf f s :=
  ⟨_, _, h, touches_const (f s).obuf⟩

/-- A move that neither reads nor writes OBUF. -/
theorem ignoresObuf_of_keep {f : State → State} {s : State}
    (h : ∀ o, f { s with obuf := o } = { f s with obuf := o }) : IgnoresObuf f s :=
  ⟨id, _, h, touches_id⟩

/-- DONE cuts OBUF at a length that is not read from it. -/
theorem ignoresObuf_signalDone (n : State → Nat) (s : State) (hn : ∀ o, n { s with obuf := o } = n s) :
    IgnoresObuf (fun u => signalDone (n u) u) s :=
  ⟨_, _, fun o => by simp only [hn]; rfl, touches_truncate (n s) s.fresh⟩

theorem ignoresObuf_encGroup (s : State) : IgnoresObuf encGroup s := by
  refine ⟨_, _, fun o => ?_, touches_writeSeq (5 * s.gi) (encGroupSeq (inputSeq s) s.gi)⟩
  have hobuf : (encGroup { s with obuf := o }).obuf = o.writeSeq (5 * s.gi) (encGroupSeq (inputSeq s) s.gi) :=
    encGroup_obuf _
  rw [← hobuf]
  rfl

/-- The look-up of a symbol takes it. -/
theorem decLookup_symbol {s : State} {dg : Digit} (h : rev (decLoad s) = some dg) :
    decLookup s = takeSymbol (decLoad s) dg s := by
  rw [decLookup, h]

/-- The look-up of a character that is no symbol raises. -/
theorem decLookup_noSymbol {s : State} (h : rev (decLoad s) = none) :
    decLookup s = raiseError (.invalidCharacter (charIndex s) (decLoad s)) s := by
  rw [decLookup, h]

theorem ignoresObuf_decLookup (s : State) : IgnoresObuf decLookup s := by
  cases hr : rev (decLoad s) with
  | some dg =>
    refine ignoresObuf_of_keep fun o => ?_
    rw [decLookup_symbol hr, decLookup_symbol (s := { s with obuf := o }) hr]
    rfl
  | none =>
    refine ignoresObuf_of_replace fun o => ?_
    rw [decLookup_noSymbol hr, decLookup_noSymbol (s := { s with obuf := o }) hr]
    rfl

theorem ignoresObuf_decArith (s : State) : IgnoresObuf decArith s := by
  cases hv : decNarrow s.config.ovfMode (decAcc s.d) with
  | some v =>
    refine ⟨_, _, fun o => ?_, touches_writeSeq (4 * s.gi) (decUnpack v).toList⟩
    rw [decArith_some hv, decArith_some (s := { s with obuf := o }) hv]
    rfl
  | none =>
    refine ignoresObuf_of_replace fun o => ?_
    rw [decArith_none hv, decArith_none (s := { s with obuf := o }) hv]
    rfl

/-- The core's move in BUSY does not read OBUF. -/
theorem ignoresObuf_busyNext (s : State) : IgnoresObuf busyNext s := by
  have hdecGroup : IgnoresObuf (fun u => if u.slot = 5 then decArith u else decLookup u) s :=
    .ite (fun _ => Iff.rfl) (fun _ => ignoresObuf_decArith s) (fun _ => ignoresObuf_decLookup s)
  have henc : IgnoresObuf (fun u => if u.gi < u.ng then encGroup u else encDone u) s :=
    .ite (fun _ => Iff.rfl) (fun _ => ignoresObuf_encGroup s) (fun _ => ignoresObuf_signalDone _ s fun _ => rfl)
  have hdec : IgnoresObuf
      (fun u => if u.gi < u.ng then if u.slot = 5 then decArith u else decLookup u else decDone u) s :=
    .ite (fun _ => Iff.rfl) (fun _ => hdecGroup) (fun _ => ignoresObuf_signalDone _ s fun _ => rfl)
  exact .ite (c := fun u => u.op = 0#1) (fun _ => Iff.rfl) (fun _ => henc) (fun _ => hdec)

/-- START replaces OBUF before it does anything else. -/
theorem startNext_replaceObuf (s : State) (o : Buffer) : startNext { s with obuf := o } = startNext s := by
  have henc : encStart { s with obuf := o } = encStart s := rfl
  have hdec : decStart { s with obuf := o } = decStart s := rfl
  simp only [startNext, encRun, decRun, henc, hdec]

/-- A step that makes the move `f` whatever OBUF holds touches the same elements and leaves the same in them. -/
theorem step_ignoresObuf {f : State → State} {s : State} (hf : IgnoresObuf f s)
    (hstep : ∀ o, StepTo { s with obuf := o } (f { s with obuf := o })) :
    ∃ touched : Nat → Bool, ∀ o : Buffer, ∃ o' : Buffer,
      step { s with obuf := o } = .next { f s with obuf := o' } ∧
        ∀ a, lookupCell o'.cells a = if touched a then lookupCell (f s).obuf.cells a else lookupCell o.cells a := by
  obtain ⟨g, touched, hmove, htouched⟩ := hf
  have hobuf : (f s).obuf = g s.obuf := congrArg State.obuf (hmove s.obuf)
  refine ⟨touched, fun o => ⟨g o, ?_, fun a => ?_⟩⟩
  · rw [step_of_stepTo (hstep o), hmove]
  · rw [hobuf]; exact htouched s.obuf o a

/-- Settles O44, by the cases of a step: the core's move in BUSY stores at an index, cuts at a length or replaces OBUF,
none of it read from OBUF; START and reset replace OBUF; every other step keeps it. -/
theorem coreLeavesIbufAndIgnoresObuf : Obligations.CoreLeavesIbufAndIgnoresObuf := by
  intro s t h
  cases stepTo_of_step h with
  | idle hp hh =>
    exact ⟨fun _ _ => rfl, step_ignoresObuf (f := id) (ignoresObuf_of_keep fun _ => rfl) fun o =>
      .idle (s := { s with obuf := o }) hp hh⟩
  | await rest hp hh =>
    exact ⟨fun _ _ => rfl, step_ignoresObuf (f := fun u => { u with host := rest })
      (ignoresObuf_of_keep fun _ => rfl) fun o => .await (s := { s with obuf := o }) rest hp hh⟩
  | busy hp hh =>
    exact ⟨fun _ _ => coreMove_ibuf (coreMove_busyNext s), step_ignoresObuf (ignoresObuf_busyNext s) fun o =>
      .busy (s := { s with obuf := o }) hp hh⟩
  | start rest hh hready =>
    exact ⟨fun _ _ => startNext_ibuf s, step_ignoresObuf (ignoresObuf_of_replace (startNext_replaceObuf s)) fun o =>
      .start (s := { s with obuf := o }) rest hh hready⟩
  | reset rest hh =>
    exact ⟨fun _ hreset => absurd hh (hreset rest), step_ignoresObuf
      (f := fun u => resetEvent { u with host := rest }) (ignoresObuf_of_replace fun _ => rfl) fun o =>
      .reset (s := { s with obuf := o }) rest hh⟩
  | writeOp v rest hp hh =>
    exact ⟨fun _ _ => rfl, step_ignoresObuf (f := fun u => { u with op := v, host := rest })
      (ignoresObuf_of_keep fun _ => rfl) fun o => .writeOp (s := { s with obuf := o }) v rest hp hh⟩
  | writeLen n rest hp hh hn =>
    exact ⟨fun _ _ => rfl, step_ignoresObuf (f := fun u => { u with inLen := n, host := rest })
      (ignoresObuf_of_keep fun _ => rfl) fun o => .writeLen (s := { s with obuf := o }) n rest hp hh hn⟩
  | writeIbuf i v rest hp hh hi =>
    exact ⟨fun hwrite _ => absurd hh (hwrite i v rest), step_ignoresObuf
      (f := fun u => { u with ibuf := u.ibuf.write i v, host := rest }) (ignoresObuf_of_keep fun _ => rfl) fun o =>
      .writeIbuf (s := { s with obuf := o }) i v rest hp hh hi⟩

end Sys2Proof.Machine
end

section
/-! No step lists an element of OBUF outside the room for whole groups (R37, R160). -/

namespace Sys2Proof.Machine

theorem roomInv_of_unlisted {s : State} (h : s.obuf.cells = []) : RoomInv s := by
  intro m _ cell hcell
  rw [h] at hcell
  cases hcell

theorem roomInv_signalDone (n : Nat) {s : State} (h : RoomInv s) : RoomInv (signalDone n s) :=
  fun m hm cell hcell => h m hm cell (List.mem_of_mem_filter hcell)

/-- A store inside the room. -/
theorem roomInv_of_store {s t : State} {i : Nat} {xs : List Byte} (hsame : SameOutside s t)
    (hobuf : t.obuf = s.obuf.writeSeq i xs) (h : RoomInv s)
    (hroom : ∀ m, s.config.maxLen = some m → i + xs.length ≤ 5 * encGroupCount m) : RoomInv t := by
  intro m hm cell hcell
  rw [hsame.config] at hm
  rw [hobuf] at hcell
  rcases mem_writeSeq hcell with hold | ⟨-, hnew⟩
  · exact h m hm cell hold
  · exact Nat.lt_of_lt_of_le hnew (hroom m hm)

/-- Every group of ENCODE lies in the room. -/
theorem encGroup_room {n m g : Nat} (hn : n ≤ m) (hg : g < encGroupCount n) : 5 * g + 5 ≤ 5 * encGroupCount m := by
  rw [encGroupCount_eq] at *; omega

/-- Every group of DECODE lies in the room that ENCODE of the longest input needs. -/
theorem decGroup_room {l m g : Nat} (hl : l ≤ m) (hg : g < decGroupCount l) : 4 * g + 4 ≤ 5 * encGroupCount m := by
  have hfewer : (l + 4) / 5 ≤ (m + 3) / 4 := by omega
  rw [decGroupCount_eq] at hg
  rw [encGroupCount_eq]
  omega

/-- A length that a build with a finite MAX_LEN accepts. -/
theorem le_of_lengthAllowed {maxLen : Option Nat} {n m : Nat} (h : lengthAllowed maxLen n = true)
    (hm : maxLen = some m) : n ≤ m := by
  subst hm
  exact of_decide_eq_true h

theorem roomInv_of_coreMove {s t : State} (hseq : SequenceInv s) (h : RoomInv s) (hb : s.phase = .busy)
    (hmove : CoreMove s t) : RoomInv t := by
  cases hmove with
  | encGroup hop hg =>
    obtain ⟨-, hlen, -, -, hng, -⟩ := (sequenceInv_encode hb hop).mp hseq
    refine roomInv_of_store (encGroup_same s) (encGroup_obuf s) h fun m hm => ?_
    rw [encGroupSeq_length]
    exact encGroup_room (le_of_lengthAllowed hlen hm) (hng ▸ hg)
  | decArith v hop hg hslot hv =>
    obtain ⟨-, hlen, -, -, -, -, hng, -⟩ := (sequenceInv_decode hb hop).mp hseq
    obtain ⟨hsame, -⟩ := decArith_next hv
    refine roomInv_of_store hsame (decArith_obuf hv) h fun m hm => ?_
    rw [Vector.length_toList]
    exact decGroup_room (le_of_lengthAllowed hlen hm) (hng ▸ hg)
  | takeSymbol => exact h
  | noSymbol | overflow => exact roomInv_of_unlisted rfl
  | encDone | decDone => exact roomInv_signalDone _ h

/-- START lists no element of OBUF. -/
theorem roomInv_of_startTo {s t : State} (h : StartTo s t) : RoomInv t := by
  cases h with
  | encStart | malformed | invalid | decBegun => exact roomInv_of_unlisted rfl

/-- What an operation keeps from START to DONE so that it stores inside the room. -/
def RoomInSequence (s : State) : Prop := SequenceInv s ∧ RoomInv s

theorem roomInSequence_of_coreMove (s t : State) (h : RoomInSequence s) (hb : s.phase = .busy)
    (hmove : CoreMove s t) : RoomInSequence t := by
  obtain ⟨hseq, hroom⟩ := h
  exact ⟨sequenceInv_of_coreMove s t hseq hb hmove, roomInv_of_coreMove hseq hroom hb hmove⟩

/-- An operation, from START to where the step leaves it, stores inside the room. -/
theorem roomInv_startNext {s : State} (hready : Ready s) : RoomInv (startNext s) := by
  obtain ⟨-, hlen⟩ := hready
  have hroom : RoomInSequence (startNext s) := startNext_keeps roomInSequence_of_coreMove fun v hv =>
    ⟨sequenceInv_of_startTo hlen hv, roomInv_of_startTo hv⟩
  obtain ⟨-, hroom⟩ := hroom
  exact hroom

/-- Settles O57: a group of either operation is stored inside the room, and everything else that touches OBUF lists no
element. -/
theorem stepKeepsObufRoom : Obligations.StepKeepsObufRoom := by
  intro s t hseq hroom h
  cases stepTo_of_step h with
  | busy hb => exact roomInv_of_coreMove hseq hroom hb (coreMove_busyNext s)
  | start rest hh hready => exact roomInv_startNext hready
  | reset => exact roomInv_of_unlisted rfl
  | idle | await | writeOp | writeLen | writeIbuf => exact hroom

end Sys2Proof.Machine
end

section
/-! What START refuses by its length, and what a host write leaves (R37, R31, R17). -/

namespace Sys2Proof.Machine

theorem lengthAllowed_eq_false {n m : Nat} (h : m < n) : lengthAllowed (some m) n = false :=
  decide_eq_false (Nat.not_le.mpr h)

/-- START in IDLE of a length that the build does not accept. -/
theorem acceptStart_lengthOverMax {s : State} (hidle : s.phase = .idle)
    (hlen : lengthAllowed s.config.maxLen s.inLen = false) (run : State → State) :
    acceptStart s run = .refused (.lengthOverMax s.inLen) := by
  simp [acceptStart, hidle, hlen]

/-- Settles O32: both commands begin with the conditions of START. -/
theorem lengthOverMaxIsRefused : Obligations.LengthOverMaxIsRefused := by
  intro s m hidle hm hlt
  have hlen : lengthAllowed s.config.maxLen s.inLen = false := hm ▸ lengthAllowed_eq_false hlt
  constructor
  · rw [show exec .cmdEncode s = execEncode s from rfl, execEncode, acceptStart_lengthOverMax hidle hlen]
  · rw [show exec .cmdDecode s = execDecode s from rfl, execDecode, acceptStart_lengthOverMax hidle hlen]

/-- Settles O50: each write is its own case of a step, and a write to IBUF reads back. -/
theorem hostWrites : Obligations.HostWrites := by
  intro s rest hidle
  refine ⟨fun i v hh hi => ⟨_, step_of_stepTo (.writeIbuf i v rest hidle hh hi), rfl, ?_, fun j hj => ?_⟩,
    fun v hh => step_of_stepTo (.writeOp v rest hidle hh),
    fun n hh hn => step_of_stepTo (.writeLen n rest hidle hh hn)⟩
  · rw [read_write, if_pos rfl]
  · rw [read_write, if_neg hj.symm]

end Sys2Proof.Machine
end

section
/-! Instructions, their bytes, and the alphabet of MAP (R11, R54, R55, R60). -/

namespace Sys2Proof.Machine

/-! ### The alphabet -/

/-- R54: the ranges of the codes that REVTAB holds a digit for. -/
theorem isSome_rev_iff : ∀ x : Byte, (rev x).isSome = true ↔
    (x = 0x21 ∨ (0x23 ≤ x ∧ x ≤ 0x26) ∨ (0x28 ≤ x ∧ x ≤ 0x2B) ∨ (0x2D ≤ x ∧ x ≤ 0x3A) ∨ (0x3C ≤ x ∧ x ≤ 0x5B) ∨
      (0x5D ≤ x ∧ x ≤ 0x5E) ∨ (0x61 ≤ x ∧ x ≤ 0x7B) ∨ x = 0x7D) := by decide

/-- R11: the digits, the lower-case letters and the upper-case letters are runs of FWD. -/
theorem fwd_runs : ∀ i : Digit, (i.val ≤ 9 → (fwd i).toNat = 0x30 + i.val) ∧
    (10 ≤ i.val ∧ i.val ≤ 35 → (fwd i).toNat = 0x61 + (i.val - 10)) ∧
    (36 ≤ i.val ∧ i.val ≤ 61 → (fwd i).toNat = 0x41 + (i.val - 36)) := by decide

/-- Settles O2: the valid codes and the three runs by going through the tables, the punctuation by reading FWD on from
entry 62. -/
theorem codesAreClassified : Obligations.CodesAreClassified :=
  ⟨isSome_rev_iff, fwd_runs, rfl⟩

/-! ### From an instruction to its byte and back -/

/-- The laws of coding hold of every instruction. -/
theorem coding (i : Instr) : Laws.Coding.Statement i := by
  cases i <;> exact ⟨rfl, rfl, rfl⟩

/-- An instruction is one byte: what `decode` reads does not depend on the bytes behind it. -/
theorem decode_cons_of_singleton {x : Byte} {i : Instr} (h : decode [x] = .ok (i, [])) (rest : List Byte) :
    decode (x :: rest) = .ok (i, rest) := by
  cases hc : isCommandByte x with
  | true => simpa [decode, hc] using h
  | false =>
    cases hd : decodeSym x with
    | ok j => simpa [decode, hc, hd] using h
    | error e => simp [decode, hc, hd] at h

theorem decode_encode_append (i : Instr) (rest : List Byte) : decode (encode i ++ rest) = .ok (i, rest) := by
  obtain ⟨-, hdecode, -⟩ := coding i
  exact decode_cons_of_singleton hdecode rest

/-- Settles O4: an instruction's byte alone decodes to it, and the bytes behind it are not read. -/
theorem decodeOfEncodeIsTheInstruction : Obligations.DecodeOfEncodeIsTheInstruction :=
  fun i rest _ => decode_encode_append i rest

/-- The table word of an instruction is its byte. -/
theorem decodeTableWord_encodeByte (i : Instr) : decodeTableWord 8 (encodeByte i).toNat = some i := by
  have hbytes : tableBytes 8 (encodeByte i).toNat = encode i ++ [] := by
    simp [tableBytes, encode]
  rw [decodeTableWord, hbytes, decode_encode_append]

/-- Settles O3: each of the nine words is its row's byte, and the two other codes match no row. -/
theorem tableWordsDecode : Obligations.TableWordsDecode :=
  ⟨decodeTableWord_encodeByte .cmdEncode, decodeTableWord_encodeByte .cmdDecode, decodeTableWord_encodeByte .sym0,
    decodeTableWord_encodeByte .sym10, decodeTableWord_encodeByte .sym36, decodeTableWord_encodeByte .sym62,
    decodeTableWord_encodeByte .sym68, decodeTableWord_encodeByte .sym80, decodeTableWord_encodeByte .sym84, rfl, rfl⟩

/-! ### From a code to its symbol -/

theorem decodeSym_ok {x : Byte} {i : Instr} (h : decodeSym x = .ok i) : ⟨x, i⟩ ∈ symRows := by
  rw [decodeSym] at h
  split at h
  next r hfind =>
    obtain rfl : r.code = x := by simpa using List.find?_some hfind
    obtain rfl : r.instr = i := by simpa using h
    exact List.mem_of_find?_eq_some hfind
  next => cases h

theorem decodeSym_error {x : Byte} {e : DecodeError} (h : decodeSym x = .error e) : e = .invalidSymbol x := by
  rw [decodeSym] at h
  split at h
  next => cases h
  next => exact (Except.error.inj h).symm

/-- Every SYM8 row is a symbol's, with that symbol's byte (R60). -/
theorem symRows_instr : ∀ r ∈ symRows, r.instr.digit?.isSome = true ∧ encodeByte r.instr = r.code := by decide

/-- Settles O5: a code that decodes stands in a row, whose byte MAP.REV reads as the row's digit. -/
theorem symbolDecodingAgreesWithMapper : Obligations.SymbolDecodingAgreesWithMapper := by
  intro x
  cases hd : decodeSym x with
  | ok i =>
    obtain ⟨hdigit, hbyte : encodeByte i = x⟩ := symRows_instr _ (decodeSym_ok hd)
    obtain ⟨-, -, hrev⟩ := coding i
    exact ⟨hbyte ▸ hrev, hdigit, hbyte⟩
  | error e => exact ⟨rev_of_decodeSym_error hd, decodeSym_error hd⟩

end Sys2Proof.Machine
end

section
/-! MAP's two tables invert each other (R72). -/

namespace Sys2Proof.Machine

/-- MAP.FWD inverts MAP.REV on the valid codes, by evaluation over the 256 codes (R72). -/
theorem fwd_of_mem_rev : ∀ x : Byte, ∀ i ∈ rev x, fwd i = x := by decide

/-- A digit that MAP.REV reads in a code has that code as its character. -/
theorem fwd_of_rev_eq_some {x : Byte} {i : Digit} (h : rev x = some i) : fwd i = x :=
  fwd_of_mem_rev x i h

/-- A code that is no digit's character is INVALID: a digit read in it would have it as its character. -/
theorem rev_eq_none_of_not_exists_fwd {x : Byte} (h : ¬∃ i, fwd i = x) : rev x = none :=
  Option.eq_none_iff_forall_ne_some.mpr fun i hrev => h ⟨i, fwd_of_rev_eq_some hrev⟩

/-- Settles O1: the two inverse laws by going through the tables, and INVALID of the other codes from the second law. -/
theorem mapperTablesAreInverse : Obligations.MapperTablesAreInverse :=
  ⟨rev_fwd, fun _ _ => fwd_of_rev_eq_some, fun _ => rev_eq_none_of_not_exists_fwd⟩

end Sys2Proof.Machine
end

section
/-! What the primitives of ENC compute (R81, R83, R84, R90). -/

namespace Sys2Proof.Machine

/-- ENC.PAD completes the last group (R81). -/
theorem four_mul_encGroupCount (n : Nat) : 4 * encGroupCount n = n + (encPad n).val := by
  rw [encGroupCount_eq, encPad_val]; omega

theorem encPad_le_three (n : Nat) : (encPad n).val ≤ 3 := by
  rw [encPad_val]; omega

/-- Settles O6: ENC.PAD and the number of groups in closed form, and the padding that completes the last group. -/
theorem encodePaddingCount : Obligations.EncodePaddingCount :=
  fun n => ⟨encPad_val n, four_mul_encGroupCount n, encGroupCount_eq n⟩

/-- Settles O8: Horner's rule multiplied out, and the sum of four bytes fits 32 bits. -/
theorem packIsBigEndian : Obligations.PackIsBigEndian := by
  intro b
  have h0 := b[0].isLt
  have h1 := b[1].isLt
  have h2 := b[2].isLt
  have h3 := b[3].isLt
  rw [encPack, BitVec.toNat_ofNat, Nat.mod_eq_of_lt (by omega)]
  ring

/-- The digits of a word determine it, since DEC.ACC gives it back (R90). -/
theorem encDigits_injective {v w : Word} (h : encDigits v = encDigits w) : v = w := by
  apply BitVec.eq_of_toNat_eq
  rw [← digits_sum v, h, digits_sum w]

/-- Settles O9: the digits are the divisions as they are written, and their sum, which DEC.ACC computes, is the word. -/
theorem digitsAreLossless : Obligations.DigitsAreLossless :=
  ⟨fun _ => ⟨rfl, rfl, rfl, rfl, rfl⟩, digits_sum, fun _ _ => encDigits_injective, by decide, by decide⟩

end Sys2Proof.Machine
end

section
/-! ENCODE as a function on sequences: its length, its alphabet, and that whole groups stand for themselves
(R88, R89, R91). -/

namespace Sys2Proof.Machine

/-- Settles O14: the closed forms of ENC.PAD and of the number of groups in the length `5*ng - pad`. -/
theorem encodeLengthLaw : Obligations.EncodeLengthLaw := by
  intro data n pad
  have hlen : (encodeSeq data).length = 5 * ((n + 3) / 4) - pad := by
    rw [encodeSeq_length, encGroupCount_eq]
  have hpad : pad = (4 - n % 4) % 4 := encPad_val n
  omega

/-- ENC.GROUP writes symbols only. -/
theorem mem_encChars {d : Vector Digit 5} {x : Byte} (h : x ∈ (encChars d).toList) : ∃ dg, x = fwd dg := by
  obtain rfl | rfl | rfl | rfl | rfl : x = fwd d[0] ∨ x = fwd d[1] ∨ x = fwd d[2] ∨ x = fwd d[3] ∨ x = fwd d[4] := by
    simpa [encChars] using h
  all_goals exact ⟨_, rfl⟩

/-- Settles O16: every character of an encoding is a character of one of its groups. -/
theorem encodingStaysInAlphabet : Obligations.EncodingStaysInAlphabet := by
  intro data x hx
  obtain ⟨g, -, hg⟩ := List.mem_flatMap.mp (List.mem_of_mem_take hx)
  exact mem_encChars hg

/-- A group that lies in the first part of a sequence does not depend on the rest. -/
theorem encGroupSeq_append_left (x y : List Byte) {g : Nat} (h : 4 * g + 4 ≤ x.length) :
    encGroupSeq (x ++ y) g = encGroupSeq x g := by
  have hload : ∀ k, k < 4 → encLoadSeq (x ++ y) g k = encLoadSeq x g k := fun k hk =>
    encLoadSeq_append_left x y g k (by omega)
  simp only [encGroupSeq, hload, Nat.reduceLT]

/-- A group past a first part of whole groups does not depend on it. -/
theorem encGroupSeq_append_right (x y : List Byte) {q : Nat} (g : Nat) (h : x.length = 4 * q) :
    encGroupSeq (x ++ y) (q + g) = encGroupSeq y g := by
  simp only [encGroupSeq, encLoadSeq_append_right x y q g _ h]

/-- Of an input of whole groups no character is dropped. -/
theorem encodeSeq_of_whole {x : List Byte} {q : Nat} (h : x.length = 4 * q) :
    encodeSeq x = (List.range q).flatMap (encGroupSeq x) := by
  have hng : encGroupCount x.length = q := by rw [encGroupCount_eq]; omega
  have hpad : (encPad x.length).val = 0 := by rw [encPad_val]; omega
  rw [encodeSeq, hng, encTrunc, hpad, List.take_of_length_le]
  rw [flatMap_range_length _ 5 (encGroupSeq_length x)]
  omega

/-- Settles O17: the groups of `x ++ y` are those of `x`, all of them whole, and those of `y`, which has the padding of
the whole. -/
theorem encodeConcatenates : Obligations.EncodeConcatenates := by
  intro x y hx
  obtain ⟨q, hq⟩ : ∃ q, x.length = 4 * q := ⟨x.length / 4, by omega⟩
  have hng : encGroupCount (x ++ y).length = q + encGroupCount y.length := by
    rw [List.length_append, encGroupCount_eq, encGroupCount_eq]; omega
  have hpad : encPad (x ++ y).length = encPad y.length := by
    apply Fin.ext
    rw [List.length_append, encPad_val, encPad_val]; omega
  have hleft : (List.range q).flatMap (encGroupSeq (x ++ y)) = encodeSeq x := by
    rw [encodeSeq_of_whole hq]
    exact flatMap_range_congr _ _ q fun g hg => encGroupSeq_append_left x y (by omega)
  have hlen : (encodeSeq x).length = 5 * q := by
    rw [encodeSeq_of_whole hq, flatMap_range_length _ 5 (encGroupSeq_length x)]
  have hcut : encTrunc (q + encGroupCount y.length) (encPad y.length) =
      (encodeSeq x).length + encTrunc (encGroupCount y.length) (encPad y.length) := by
    have := four_mul_encGroupCount y.length
    have := encPad_le_three y.length
    rw [hlen, encTrunc, encTrunc]; omega
  rw [encodeSeq, hng, hpad, flatMap_range_add, hleft, hcut, List.take_length_add_append]
  simp only [encGroupSeq_append_right x y _ hq]
  rfl

end Sys2Proof.Machine
end

section
/-! DECODE inverts ENCODE (R92): the text of an encoding has a legal length and symbols only, none of its groups
overflows, and the characters that complete its last group change no byte of the data. -/

namespace Sys2Proof.Machine

theorem encodeSeq_length_mod (data : List Byte) : (encodeSeq data).length % 5 ≠ 1 := by
  obtain ⟨-, -, -, -, h⟩ := encodeLengthLaw data
  exact h

theorem isSome_rev_of_mem_encodeSeq (data : List Byte) : ∀ x ∈ encodeSeq data, (rev x).isSome = true := by
  intro x hx
  obtain ⟨dg, rfl⟩ := encodingStaysInAlphabet data x hx
  rw [rev_fwd]; rfl

/-- DECODE of an encoding has the groups of the ENCODE (R101, R81). -/
theorem decGroupCount_encodeSeq (data : List Byte) :
    decGroupCount (encodeSeq data).length = encGroupCount data.length := by
  have := encPad_le_three data.length
  rw [decGroupCount_eq, encodeSeq_length]; omega

/-- DEC.TRUNC keeps as many bytes of an encoding as ENCODE was given. -/
theorem decTrunc_encodeSeq (data : List Byte) :
    decTrunc (encGroupCount data.length) (decPad (encodeSeq data).length) = data.length := by
  have := four_mul_encGroupCount data.length
  have := encPad_le_three data.length
  rw [decTrunc, decPad_val, encodeSeq_length]; omega

/-- The four bytes that ENC loads for a group. -/
def encBytesSeq (data : List Byte) (g : Nat) : Vector Byte 4 :=
  #v[encLoadSeq data g 0, encLoadSeq data g 1, encLoadSeq data g 2, encLoadSeq data g 3]

theorem encBytesSeq_getElem (data : List Byte) (g k : Nat) (hk : k < 4) :
    (encBytesSeq data g)[k] = encLoadSeq data g k := by
  obtain rfl | rfl | rfl | rfl : k = 0 ∨ k = 1 ∨ k = 2 ∨ k = 3 := by omega
  all_goals rfl

theorem groupDigits_getElem (text : List Byte) (g k : Nat) (hk : k < 5) :
    (groupDigits text g)[k] = digitAt text g k := by
  obtain rfl | rfl | rfl | rfl | rfl : k = 0 ∨ k = 1 ∨ k = 2 ∨ k = 3 ∨ k = 4 := by omega
  all_goals rfl

theorem encLoadSeq_past_end {data : List Byte} {g k : Nat} (h : data.length ≤ 4 * g + k) :
    encLoadSeq data g k = 0 := by
  simp [encLoadSeq, h]

/-- A group of an encoding does not overflow, and unpacks to the bytes of the data (R92). With `p` the number of
characters it lacks, as many bytes of the group loaded are 0, and `unpack_of_filled` applies. -/
theorem groupValue_encodeSeq (data : List Byte) {g : Nat} (hg : g < encGroupCount data.length) :
    groupValue (encodeSeq data) g < 2 ^ 32 ∧ ∀ k (hk : k < 4), 4 * g + k < data.length →
      (decUnpack (BitVec.ofNat 32 (groupValue (encodeSeq data) g)))[k] = encLoadSeq data g k := by
  have hlen := encodeSeq_length data
  have hng := four_mul_encGroupCount data.length
  have hpad := encPad_le_three data.length
  generalize hp : 5 * g + 5 - (encodeSeq data).length = p
  have hzero : ∀ k (hk : k < 4), 4 - p ≤ k → (encBytesSeq data g)[k] = 0 := fun k hk hpk => by
    rw [encBytesSeq_getElem, encLoadSeq_past_end (by omega)]
  have hdigits : ∀ k (hk : k < 5), (groupDigits (encodeSeq data) g)[k] =
      if k < 5 - p then (encDigits (encPack (encBytesSeq data g)))[k] else 84 := fun k hk => by
    have hinside : 5 * g + k < (encodeSeq data).length ↔ k < 5 - p := by omega
    simp only [groupDigits_getElem, digitAt_encodeSeq data g k hk, hinside, encBytesSeq]
  obtain ⟨hsmall, hbytes⟩ := unpack_of_filled (encBytesSeq data g) p (by omega) hzero _ hdigits
  refine ⟨hsmall, fun k hk hin => ?_⟩
  rw [← encBytesSeq_getElem data g k hk]
  exact hbytes k hk (by omega)

/-- A byte of the data stands at its place in its group's bytes. -/
theorem groupBytes_encodeSeq_getElem? {data : List Byte} {g k : Nat} (hk : k < 4) (h : 4 * g + k < data.length) :
    (groupBytes (encodeSeq data) g)[k]? = data[4 * g + k]? := by
  have hg : g < encGroupCount data.length := by rw [encGroupCount_eq]; omega
  obtain ⟨-, hbytes⟩ := groupValue_encodeSeq data hg
  have hload : encLoadSeq data g k = data[4 * g + k] := by simp [encLoadSeq, h]
  rw [List.getElem?_eq_getElem h, ← hload, ← hbytes k hk h, groupBytes, List.getElem?_eq_getElem (by simpa using hk)]
  simp

/-- The bytes of all groups of an encoding, cut to the length of the data, are the data. -/
theorem groupBytes_encodeSeq (data : List Byte) :
    ((List.range (encGroupCount data.length)).flatMap (groupBytes (encodeSeq data))).take data.length = data := by
  apply List.ext_getElem?
  intro i
  by_cases hi : i < data.length
  · obtain ⟨g, k, hk, rfl⟩ : ∃ g k, k < 4 ∧ i = 4 * g + k := ⟨i / 4, i % 4, by omega, by omega⟩
    have hg : g < encGroupCount data.length := by rw [encGroupCount_eq]; omega
    rw [List.getElem?_take_of_lt hi, flatMap_range_getElem? _ 4 (groupBytes_length _) _ _ _ hg hk,
      groupBytes_encodeSeq_getElem? hk hi]
  · rw [List.getElem?_eq_none (Nat.not_lt.mp hi), List.getElem?_eq_none]
    exact (List.length_take_le _ _).trans (Nat.not_lt.mp hi)

/-- Settles O20: no check of DECODE fails on an encoding, and its groups give the bytes of the data back. -/
theorem decodeInvertsEncode : Obligations.DecodeInvertsEncode := by
  intro m data
  have hsmall : ∀ g, g < decGroupCount (encodeSeq data).length → groupValue (encodeSeq data) g < 2 ^ 32 := by
    intro g hg
    rw [decGroupCount_encodeSeq] at hg
    obtain ⟨h, -⟩ := groupValue_encodeSeq data hg
    exact h
  rw [decodeSeq_ok (encodeSeq_length_mod data) (isSome_rev_of_mem_encodeSeq data) m (.inr hsmall),
    decGroupCount_encodeSeq, decTrunc_encodeSeq, groupBytes_encodeSeq]

/-- Settles O34: ENCODE ends with the encoding of its input, and DECODE of that with the input again. -/
theorem commandsRoundTrip : Obligations.CommandsRoundTrip := by
  intro s t u _ hps hs hu hpu hin
  obtain ⟨-, -, hout⟩ := (exec_encode_ends hps hs).ok
  have hends := decRun_ends u
  rw [hin, hout, decodeInvertsEncode] at hends
  obtain ⟨hstatus, -, hback⟩ := hends.ok
  exact ⟨decRun u, by rw [exec_decode hu, hpu], hstatus, hback⟩

end Sys2Proof.Machine
end

section
/-! ENCODE on the machine: the whole command, and one group (R80, R82 to R87, R155, R156). -/

namespace Sys2Proof.Machine

theorem CommandKeeps.input {s t : State} (h : CommandKeeps s t) : inputSeq t = inputSeq s := by
  rw [inputSeq, inputSeq, h.ibuf, h.inLen]

theorem Ends.done {s t : State} {r : Except Err (List Byte)} (h : Ends s r t) : t.done = true := by
  cases h <;> rfl

/-- The sizes ENCODE leaves are those of its input, and no group is left (R81, R15). -/
theorem encRun_sizes (s : State) :
    (encRun s).gi = encGroupCount s.inLen ∧ (encRun s).ng = encGroupCount s.inLen ∧
      (encRun s).pad = encPad s.inLen := by
  obtain ⟨hsame, hgi, -, -⟩ := encBefore s
  rw [encRun_eq]
  exact ⟨hgi.trans hsame.ng, hsame.ng, hsame.pad⟩

/-- Settles O22: ENCODE as one transition ends with the encoding of its input, whose length is `5*ng - pad`. -/
theorem encodeCommandCompletes : Obligations.EncodeCommandCompletes := by
  intro s hready hpace
  have hends := encRun_ends s
  obtain ⟨hstatus, hlen, hout⟩ := hends.ok
  obtain ⟨hgi, hng, hpad⟩ := encRun_sizes s
  have hlen' : (encRun s).outLen = 5 * encGroupCount s.inLen - (encPad s.inLen).val := by
    rw [hlen, encodeSeq_length, inputSeq_length]
  exact ⟨encRun s, by rw [exec_encode hready, hpace], hstatus, hends.phase, hends.done, hout, hlen', hlen,
    hgi.trans hng.symm, hng, hpad, (CommandTo.ended hends).keeps.input⟩

/-- A group step stores the characters it leaves in `c` (R86). -/
theorem encGroup_storesChars (s : State) :
    (encGroup s).obuf = s.obuf.writeSeq (5 * s.gi) (encGroup s).c.toList := by
  simp [encGroup, encFetch]

/-- A read of OBUF inside the group just stored. -/
theorem encGroup_read_inside (s : State) (k : Fin 5) :
    (encGroup s).obuf.read (5 * s.gi + k.val) = (encGroup s).c[k.val] := by
  rw [encGroup_storesChars, read_writeSeq, dif_pos (by simp)]
  simp

/-- A read of OBUF outside the group just stored. -/
theorem encGroup_read_outside (s : State) {a : Nat} (h : a < 5 * s.gi ∨ 5 * s.gi + 5 ≤ a) :
    (encGroup s).obuf.read a = s.obuf.read a := by
  rw [encGroup_storesChars, read_writeSeq, dif_neg (by rw [Vector.length_toList]; omega)]

/-- Settles O38: with a group of ENCODE left, the core's move is the group step. -/
theorem encodeGroupStep : Obligations.EncodeGroupStep := by
  intro s hleft hbusy hop hg
  have hnext : busyNext s = encGroup s := by rw [busyNext, if_pos hop, if_pos hg]
  have hsame := encGroup_same s
  refine ⟨encGroup s, hnext ▸ step_of_stepTo (.busy hbusy hleft), encGroup_gi s, ?_, ?_, ?_, ?_,
    encGroup_read_inside s, fun a ha => encGroup_read_outside s ha, hsame.ibuf, hsame.phase.trans hbusy, hsame.done,
    hsame.pad, hsame.ng, hsame.op, hsame.inLen, hsame.config, hsame.status, hsame.outLen, hsame.errIdx,
    hsame.errChar, encGroup_slot s, hsame.fresh, hsame.host⟩
  all_goals rfl

end Sys2Proof.Machine
end

section
/-! What the primitives of DEC compute (R101, R105 to R107), and one group of it on the characters of ENC (R108). -/

namespace Sys2Proof.Machine

/-- DEC.PAD completes the last group (R101). -/
theorem five_mul_decGroupCount (l : Nat) : 5 * decGroupCount l = l + (decPad l).val := by
  rw [decGroupCount_eq, decPad_val]; omega

/-- Settles O7: from the closed forms of DEC.PAD and of the number of groups. -/
theorem decodePaddingCount : Obligations.DecodePaddingCount := by
  intro l
  have hpad := decPad_val l
  refine ⟨?_, five_mul_decGroupCount l, decGroupCount_eq l, by omega⟩
  split <;> omega

theorem decAcc_le (d : Vector Digit 5) : decAcc d ≤ 85 ^ 5 - 1 := by
  have := d[0].isLt
  have := d[1].isLt
  have := d[2].isLt
  have := d[3].isLt
  have := d[4].isLt
  rw [decAcc_sum]
  omega

/-- Settles O10: the sum is Horner's rule multiplied out, and it is bounded by its value for five digits 84. -/
theorem accumulateIsExact : Obligations.AccumulateIsExact :=
  fun d => ⟨decAcc_sum d, rfl, decAcc_le d⟩

/-- Settles O11: the low 32 bits of a value below 2^32 are the value; of one from 2^32 up to 85^5 - 1, which is below
2^33, they are what is left after subtracting 2^32. -/
theorem narrowWrapsOrFaults : Obligations.NarrowWrapsOrFaults := by
  intro a ha
  refine ⟨fun hsmall m => ⟨decNarrow_some (.inr hsmall), ?_⟩,
    fun hlarge => ⟨decNarrow_none hlarge, BitVec.ofNat 32 a, decNarrow_some (.inl rfl), ?_⟩⟩
  · rw [BitVec.toNat_ofNat, Nat.mod_eq_of_lt hsmall]
  · rw [BitVec.toNat_ofNat]; omega

/-- The bytes of a word by division (R107). -/
theorem decUnpack_toNat (v : Word) :
    (decUnpack v)[0].toNat = v.toNat / 256 ^ 3 % 256 ∧ (decUnpack v)[1].toNat = v.toNat / 256 ^ 2 % 256 ∧
      (decUnpack v)[2].toNat = v.toNat / 256 % 256 ∧ (decUnpack v)[3].toNat = v.toNat % 256 := by
  simp [decUnpack]

theorem encPack_decUnpack (v : Word) : encPack (decUnpack v) = v := by
  apply BitVec.eq_of_toNat_eq
  obtain ⟨h0, h1, h2, h3⟩ := decUnpack_toNat v
  have := v.isLt
  rw [packIsBigEndian, h0, h1, h2, h3]
  omega

theorem decUnpack_encPack (b : Vector Byte 4) : decUnpack (encPack b) = b := by
  obtain ⟨h0, h1, h2, h3⟩ := decUnpack_toNat (encPack b)
  obtain ⟨-, e0, e1, e2, e3⟩ :=
    bytes_of_sum _ _ _ _ _ b[0].isLt b[1].isLt b[2].isLt b[3].isLt (packIsBigEndian b)
  ext1 k hk
  apply BitVec.eq_of_toNat_eq
  obtain rfl | rfl | rfl | rfl : k = 0 ∨ k = 1 ∨ k = 2 ∨ k = 3 := by omega
  · exact h0.trans e0
  · exact h1.trans e1
  · exact h2.trans e2
  · exact h3.trans e3

/-- Settles O12: DEC.UNPACK takes the bytes of the sum that ENC.PACK forms. -/
theorem unpackInvertsPack : Obligations.UnpackInvertsPack :=
  ⟨decUnpack_toNat, decUnpack_encPack, encPack_decUnpack⟩

theorem encChars_getElem? (d : Vector Digit 5) {k : Nat} (hk : k < 5) : (encChars d).toList[k]? = some (fwd d[k]) := by
  obtain rfl | rfl | rfl | rfl | rfl : k = 0 ∨ k = 1 ∨ k = 2 ∨ k = 3 ∨ k = 4 := by omega
  all_goals rfl

/-- DEC reads in the characters of five digits those digits. -/
theorem groupDigits_encChars (d : Vector Digit 5) : groupDigits (encChars d).toList 0 = d := by
  ext1 k hk
  rw [groupDigits_getElem _ _ _ hk, digitAt, decLoadSeq, Nat.mul_zero, Nat.zero_add, encChars_getElem? d hk]
  simp only [rev_fwd]

/-- Settles O13: the characters are symbols, their digits sum to the word packed, which is below 2^32, and DEC.UNPACK
inverts ENC.PACK. -/
theorem groupRoundTrip : Obligations.GroupRoundTrip := by
  intro m b
  have hvalid : ∀ x ∈ (encChars (encDigits (encPack b))).toList, (rev x).isSome = true := by
    intro x hx
    obtain ⟨dg, rfl⟩ := mem_encChars hx
    rw [rev_fwd]; rfl
  have hvalue : groupValue (encChars (encDigits (encPack b))).toList 0 = (encPack b).toNat := by
    rw [groupValue, groupDigits_encChars, digits_sum]
  rw [decGroupSeq_valid hvalid, hvalue, decNarrow_some (.inr (encPack b).isLt), BitVec.ofNat_toNat,
    BitVec.setWidth_eq]
  exact congrArg (fun bytes => Except.ok bytes.toList) (decUnpack_encPack b)

end Sys2Proof.Machine
end

section
/-! DECODE as a function on sequences: when it succeeds and with what, its length, its errors, and that whole quintets
stand for themselves (R111, R113 to R115). -/

namespace Sys2Proof.Machine

/-- The bytes of the groups of a text, cut to the length of the result (R107 to R110). -/
def decodedBytes (text : List Byte) : List Byte :=
  ((List.range (decGroupCount text.length)).flatMap (groupBytes text)).take
    (decTrunc (decGroupCount text.length) (decPad text.length))

/-- What DECODE of a text that it accepts has checked, and its result. -/
structure Decodes (m : OvfMode) (text out : List Byte) : Prop where
  length : text.length % 5 ≠ 1
  valid : ∀ x ∈ text, (rev x).isSome = true
  noOverflow : m = .wrap ∨ ∀ g, g < decGroupCount text.length → groupValue text g < 2 ^ 32
  result : out = decodedBytes text

/-- DECODE succeeds exactly when no check fails. -/
theorem decodeSeq_eq_ok_iff {m : OvfMode} {text out : List Byte} :
    decodeSeq m text = .ok out ↔ Decodes m text out := by
  constructor
  · intro h
    have hcase := decodeCase_decodeSeq m text
    rw [h] at hcase
    cases hcase with
    | decoded hl hv hn => exact ⟨hl, hv, hn, rfl⟩
  · rintro ⟨hl, hv, hn, rfl⟩
    exact decodeSeq_ok hl hv m hn

theorem decodedBytes_length (text : List Byte) :
    (decodedBytes text).length = 4 * decGroupCount text.length - (decPad text.length).val := by
  rw [decodedBytes, List.length_take, flatMap_range_length _ 4 (groupBytes_length text), decTrunc]
  omega

/-- Settles O15: the closed forms of DEC.PAD and of the number of groups in the length `4*ng - pad`. -/
theorem decodeLengthLaw : Obligations.DecodeLengthLaw := by
  intro m text out h l pad
  obtain ⟨hl, -, -, rfl⟩ := decodeSeq_eq_ok_iff.mp h
  have hlen : (decodedBytes text).length = 4 * ((l + 4) / 5) - pad := by
    rw [decodedBytes_length, decGroupCount_eq]
  have hpad : pad = (5 - l % 5) % 5 := decPad_val l
  refine ⟨hl, ?_, hlen, ?_⟩ <;> omega

/-- Settles O19: one clause for each way DECODE ends. -/
theorem decodeErrorOrder : Obligations.DecodeErrorOrder := by
  intro m text l valid
  refine ⟨fun hl => decodeSeq_malformed hl m, fun hl i hi hrev hlow => ?_, ?_,
    fun hl hv hn => ⟨_, decodeSeq_ok hl hv m hn⟩⟩
  · have hfirst := firstInvalid_some (i := 0) hi hrev hlow
    rw [Nat.zero_add] at hfirst
    exact decodeSeq_invalid hl hfirst m
  · rintro hl hv rfl g hg ho hlow
    exact decodeSeq_overflow hl hv hg ho hlow

/-- Of a text of whole quintets no byte is dropped. -/
theorem decodedBytes_of_whole {text : List Byte} {q : Nat} (h : text.length = 5 * q) :
    decodedBytes text = (List.range q).flatMap (groupBytes text) := by
  have hng : decGroupCount text.length = q := by rw [decGroupCount_eq]; omega
  have hpad : (decPad text.length).val = 0 := by rw [decPad_val]; omega
  rw [decodedBytes, hng, decTrunc, hpad, List.take_of_length_le]
  rw [flatMap_range_length _ 4 (groupBytes_length text)]
  omega

section
variable {s : List Byte} {q : Nat} (hq : s.length = 5 * q) (t : List Byte)
include hq

/-- The groups of whole quintets and what follows are counted apart. -/
theorem decGroupCount_append : decGroupCount (s ++ t).length = q + decGroupCount t.length := by
  rw [List.length_append, decGroupCount_eq, decGroupCount_eq]; omega

theorem decPad_append : decPad (s ++ t).length = decPad t.length := by
  apply Fin.ext
  rw [List.length_append, decPad_val, decPad_val]; omega

theorem groupBytes_append_right (g : Nat) : groupBytes (s ++ t) (q + g) = groupBytes t g := by
  rw [groupBytes, groupValue_append_right s t q g hq, groupBytes]

theorem groupBytes_append_left {g : Nat} (hg : g < q) : groupBytes (s ++ t) g = groupBytes s g := by
  rw [groupBytes, groupValue_append_left s t g (by omega), groupBytes]

/-- Whole quintets stand for themselves: the padding of what follows cuts only the bytes of what follows. -/
theorem decodedBytes_append : decodedBytes (s ++ t) = decodedBytes s ++ decodedBytes t := by
  have hleft : (List.range q).flatMap (groupBytes (s ++ t)) = decodedBytes s := by
    rw [decodedBytes_of_whole hq]
    exact flatMap_range_congr _ _ q fun g hg => groupBytes_append_left hq t hg
  have hlen : (decodedBytes s).length = 4 * q := by
    rw [decodedBytes_of_whole hq, flatMap_range_length _ 4 (groupBytes_length s)]
  have hcut : decTrunc (q + decGroupCount t.length) (decPad t.length) =
      (decodedBytes s).length + decTrunc (decGroupCount t.length) (decPad t.length) := by
    rw [hlen, decTrunc, decTrunc, decGroupCount_eq, decPad_val]; omega
  rw [decodedBytes, decGroupCount_append hq, decPad_append hq, flatMap_range_add, hleft, hcut,
    List.take_length_add_append]
  simp only [groupBytes_append_right hq]
  rfl

end

/-- Settles O18: the checks that `s ++ t` passes include those of `t`, whose groups follow the whole ones of `s`. -/
theorem decodeConcatenates : Obligations.DecodeConcatenates := by
  intro m s t out all hs hout hall
  obtain ⟨q, hq⟩ : ∃ q, s.length = 5 * q := ⟨s.length / 5, by omega⟩
  obtain ⟨-, -, -, rfl⟩ := decodeSeq_eq_ok_iff.mp hout
  obtain ⟨hl, hv, hn, rfl⟩ := decodeSeq_eq_ok_iff.mp hall
  have ht : t.length % 5 ≠ 1 := by
    rw [List.length_append] at hl; omega
  refine ⟨decodedBytes t, decodeSeq_eq_ok_iff.mpr ⟨ht, ?_, ?_, rfl⟩, decodedBytes_append hq t⟩
  · exact fun x hx => hv x (List.mem_append_right s hx)
  · refine hn.imp_right fun hsmall g hg => ?_
    rw [← groupValue_append_right s t q g hq]
    exact hsmall (q + g) (by rw [decGroupCount_append hq]; omega)

/-- The digits of a sum of five digits at their places. -/
theorem digits_of_sum {x d0 d1 d2 d3 d4 : Nat} (h0 : d0 < 85) (h1 : d1 < 85) (h2 : d2 < 85) (h3 : d3 < 85)
    (h4 : d4 < 85) (hx : x = (((d0 * 85 + d1) * 85 + d2) * 85 + d3) * 85 + d4) :
    x / 85 ^ 4 % 85 = d0 ∧ x / 85 ^ 3 % 85 = d1 ∧ x / 85 ^ 2 % 85 = d2 ∧ x / 85 % 85 = d3 ∧ x % 85 = d4 := by
  have e1 : x / 85 = ((d0 * 85 + d1) * 85 + d2) * 85 + d3 := by omega
  have e2 : x / 85 ^ 2 = (d0 * 85 + d1) * 85 + d2 := by omega
  have e3 : x / 85 ^ 3 = d0 * 85 + d1 := by omega
  have e4 : x / 85 ^ 4 = d0 := by omega
  refine ⟨?_, ?_, ?_, ?_, ?_⟩ <;> omega

/-- ENC.DIGITS inverts DEC.ACC where it does not overflow (R90). -/
theorem encDigits_decAcc {d : Vector Digit 5} (h : decAcc d < 2 ^ 32) :
    encDigits (BitVec.ofNat 32 (decAcc d)) = d := by
  obtain ⟨hdiv, -⟩ := digitsAreLossless
  obtain ⟨h0, h1, h2, h3, h4⟩ := hdiv (BitVec.ofNat 32 (decAcc d))
  rw [BitVec.toNat_ofNat, Nat.mod_eq_of_lt h] at h0 h1 h2 h3 h4
  obtain ⟨e0, e1, e2, e3, e4⟩ := digits_of_sum d[0].isLt d[1].isLt d[2].isLt d[3].isLt d[4].isLt rfl
  ext1 k hk
  apply Fin.ext
  obtain rfl | rfl | rfl | rfl | rfl : k = 0 ∨ k = 1 ∨ k = 2 ∨ k = 3 ∨ k = 4 := by omega
  · exact h0.trans e0
  · exact h1.trans e1
  · exact h2.trans e2
  · exact h3.trans e3
  · exact h4.trans e4

/-- ENC loads from the bytes of whole quintets, for group `g`, the four that group `g` of the text was unpacked to. -/
theorem encBytesSeq_decodedBytes {text : List Byte} {q g : Nat} (hq : text.length = 5 * q) (hg : g < q) :
    encBytesSeq (decodedBytes text) g = decUnpack (BitVec.ofNat 32 (groupValue text g)) := by
  ext1 k hk
  rw [encBytesSeq_getElem _ _ _ hk, encLoadSeq, decodedBytes_of_whole hq,
    flatMap_range_getElem? _ 4 (groupBytes_length text) _ _ _ hg hk, groupBytes,
    List.getElem?_eq_getElem (by simpa using hk)]
  simp

/-- ENC packs the bytes that DEC unpacked, and the digits of that word are those DEC read in the text. -/
theorem encDigits_decodedBytes {text : List Byte} {q g : Nat} (hq : text.length = 5 * q) (hg : g < q)
    (hsmall : groupValue text g < 2 ^ 32) :
    encDigits (encPack (encBytesSeq (decodedBytes text) g)) = groupDigits text g := by
  rw [encBytesSeq_decodedBytes hq hg, encPack_decUnpack]
  exact encDigits_decAcc hsmall

/-- ENCODE of the bytes of whole quintets has the length of the text again. -/
theorem encodeSeq_decodedBytes_length {text : List Byte} {q : Nat} (hq : text.length = 5 * q) :
    (encodeSeq (decodedBytes text)).length = text.length := by
  rw [encodeSeq_length, decodedBytes_length, encGroupCount_eq, encPad_val, decGroupCount_eq, decPad_val]; omega

/-- In a text of symbols the digit read at a place is that of the character there. -/
theorem fwd_digitAt {text : List Byte} (hv : ∀ x ∈ text, (rev x).isSome = true) {g k : Nat}
    (h : 5 * g + k < text.length) : fwd (digitAt text g k) = text[5 * g + k] := by
  rw [fwd_of_rev_eq_some (rev_decLoadSeq hv g k)]
  simp [decLoadSeq, h]

/-- Settles O21: character by character, the digits ENC takes from the decoded bytes are those DEC read in the text. -/
theorem wholeTextsAreCanonical : Obligations.WholeTextsAreCanonical := by
  intro text out hmod h
  obtain ⟨q, hq⟩ : ∃ q, text.length = 5 * q := ⟨text.length / 5, by omega⟩
  obtain ⟨-, hv, hn, rfl⟩ := decodeSeq_eq_ok_iff.mp h
  have hsmall : ∀ g, g < q → groupValue text g < 2 ^ 32 := by
    have hng : decGroupCount text.length = q := by rw [decGroupCount_eq]; omega
    rw [hng] at hn
    simpa using hn
  have hlen := encodeSeq_decodedBytes_length hq
  apply List.ext_getElem?
  intro i
  by_cases hi : i < text.length
  · obtain ⟨g, k, hk, rfl⟩ : ∃ g k, k < 5 ∧ i = 5 * g + k := ⟨i / 5, i % 5, by omega, by omega⟩
    have hg : g < q := by omega
    have hdigits := encDigits_decodedBytes hq hg (hsmall g hg)
    rw [encBytesSeq] at hdigits
    rw [encodeSeq_getElem? _ g k hk (by omega), List.getElem?_eq_getElem hi, ← fwd_digitAt hv hi, hdigits,
      groupDigits_getElem _ _ _ hk]
  · rw [List.getElem?_eq_none (by omega), List.getElem?_eq_none (by omega)]

end Sys2Proof.Machine
end

section
/-! The symbols: each is taken as its own code and digit, and nothing else changes (R103, R104, R11). -/

namespace Sys2Proof.Machine

/-- A symbol's byte is no command's, so it decodes to its symbol as a character too (R54). -/
theorem decodeSym_encodeByte {i : Instr} {dg : Digit} (h : i.digit? = some dg) : decodeSym (encodeByte i) = .ok i := by
  obtain ⟨-, hdecode, hrev⟩ := coding i
  rw [h] at hrev
  have hcmd : isCommandByte (encodeByte i) = false := by
    by_contra hc
    have hlt : (encodeByte i).toNat < 2 := by simpa [isCommandByte] using hc
    have : rev (encodeByte i) = none := by rw [rev, if_pos (by omega)]
    simp [this] at hrev
  rw [encode, decode, hcmd] at hdecode
  cases hd : decodeSym (encodeByte i) with
  | ok j => simpa [hd] using hdecode
  | error e => simp [hd] at hdecode

/-- Executing a symbol takes its character and its digit. -/
theorem exec_symbol {i : Instr} {dg : Digit} (h : i.digit? = some dg) (s : State) :
    exec i s = .next (takeSymbol (fwd dg) dg s) := by
  obtain ⟨dg', hrev, hexec⟩ := exec_decodeSym (decodeSym_encodeByte h) s
  obtain ⟨-, -, hrow⟩ := coding i
  obtain rfl : dg' = dg := Option.some.inj (hrev.symm.trans (hrow.trans h))
  rw [hexec, fwd_of_rev_eq_some hrev]

/-- Settles O35: the state written out is the one that taking the symbol leaves. -/
theorem symbolIsTaken : Obligations.SymbolIsTaken :=
  fun _ _ s h => exec_symbol h s

/-- Settles O36: taking a symbol writes one element of `c` and of `d`, and `slot`. -/
theorem symbolFrame : Obligations.SymbolFrame := by
  intro i dg s t h hexec
  rw [exec_symbol h] at hexec
  cases hexec
  refine ⟨fun k hk => ?_, rfl, rfl, rfl, rfl, rfl, rfl, rfl, rfl, rfl, rfl, rfl, rfl, rfl, rfl, rfl, rfl,
    fun _ => rfl, fun _ => rfl⟩
  have hplace : (takePlace s).val ≠ k.val := fun e => hk (Fin.ext e.symm)
  rw [takeSymbol_c, takeSymbol_d, Vector.getElem_set_ne _ _ hplace, Vector.getElem_set_ne _ _ hplace]
  exact ⟨rfl, rfl⟩

end Sys2Proof.Machine
end

section
/-! DECODE on the machine: the whole command, its look-ups, and the arithmetic of one group (R100 to R110, R155,
R156). -/

namespace Sys2Proof.Machine

/-- DECODE of a core ready for START, as one transition (R155). -/
theorem exec_decode_collapsed {s : State} (hready : Ready s) (hpace : s.config.pace = .collapsed) :
    exec .cmdDecode s = .next (decRun s) := by
  rw [exec_decode hready, hpace]

/-- Settles O23: the command ends with what the function on sequences gives, a result of the length `4*ng - pad`. -/
theorem decodeCommandCompletes : Obligations.DecodeCommandCompletes := by
  intro s hready hpace
  have hends := decRun_ends s
  refine ⟨decRun s, exec_decode_collapsed hready hpace, hends.phase, hends.done,
    (CommandTo.ended hends).keeps.input, ?_⟩
  cases hr : decodeSeq s.config.ovfMode (inputSeq s) with
  | ok out =>
    rw [hr] at hends
    obtain ⟨hstatus, hlen, hout⟩ := hends.ok
    obtain ⟨-, -, -, rfl⟩ := decodeSeq_eq_ok_iff.mp hr
    exact ⟨hstatus, hout, hlen, by rw [hlen, decodedBytes_length, inputSeq_length]⟩
  | error e =>
    rw [hr] at hends
    obtain ⟨hstatus, hlen, -⟩ := hends.error
    exact ⟨hstatus, hlen⟩

/-- The input is valid when each of its elements reads as a symbol. -/
theorem validIn_of_reads {s : State} (h : ∀ i, i < s.inLen → (rev (s.ibuf.read i)).isSome = true) : ValidIn s := by
  intro x hx
  obtain ⟨i, hi, rfl⟩ := List.mem_map.mp hx
  exact h i (List.mem_range.mp hi)

/-- Settles O24: with OVF_MODE = wrap the two checks of START are all that can fail. -/
theorem decodeOfLegalTextSucceeds : Obligations.DecodeOfLegalTextSucceeds := by
  intro s hready hpace hmode hl hreads
  have hok : decodeSeq .wrap (inputSeq s) = .ok (decodedBytes (inputSeq s)) :=
    decodeSeq_eq_ok_iff.mpr ⟨by rwa [inputSeq_length], validIn_of_reads hreads, .inl rfl, rfl⟩
  have hends := decRun_ends s
  rw [hmode, hok] at hends
  obtain ⟨hstatus, hlen, hout⟩ := hends.ok
  obtain ⟨-, -, -, hlaw⟩ := decodeLengthLaw _ _ _ hok
  rw [inputSeq_length] at hlaw
  exact ⟨decRun s, exec_decode_collapsed hready hpace, hstatus, hends.phase, hends.done,
    hlen.trans hlaw, by rw [hok, hout]⟩

/-- A malformed length ends DECODE at START, under both paces (R102). -/
theorem exec_decode_malformed {s : State} (hready : Ready s) (hl : s.inLen % 5 = 1) :
    exec .cmdDecode s = .next (raiseError (.malformedLength s.inLen) s.begin) := by
  have hstart := decStart_malformed hl
  rw [exec_decode hready]
  cases s.config.pace with
  | collapsed => exact congrArg Host.Outcome.next ((decRun_of_idle (by rw [hstart]; rfl)).trans hstart)
  | stepwise => exact congrArg Host.Outcome.next hstart

/-- Settles O25: what `raise` leaves of the state START began with. -/
theorem malformedLengthIsReported : Obligations.MalformedLengthIsReported :=
  fun _ hready hl => ⟨_, exec_decode_malformed hready hl, rfl, rfl, rfl, rfl, rfl, rfl, rfl, rfl⟩

/-- A character that MAP.REV reads is the code of a symbol of that digit. -/
theorem decodeSym_of_rev {x : Byte} {dg : Digit} (h : rev x = some dg) :
    ∃ i, decodeSym x = .ok i ∧ i.digit? = some dg := by
  have hagree := symbolDecodingAgreesWithMapper x
  cases hd : decodeSym x with
  | ok i =>
    rw [hd] at hagree
    obtain ⟨hrev, -⟩ := hagree
    exact ⟨i, rfl, hrev.symm.trans h⟩
  | error e => simp [rev_of_decodeSym_error hd] at h

/-- Settles O48: the validation pass of START found no invalid character, and the padding character is a symbol. -/
theorem lookupsAfterStartAreValid : Obligations.LookupsAfterStartAreValid := by
  intro s hinv hbusy hop _ _
  obtain ⟨-, -, -, -, hvalid, -⟩ := (sequenceInv_decode hbusy (by rw [hop]; decide)).mp hinv
  have hrev := rev_decLoadSeq (firstInvalid_none.mp hvalid) s.gi s.slot.val
  rw [← decLoad_eq] at hrev
  obtain ⟨i, hsym, hdigit⟩ := decodeSym_of_rev hrev
  exact ⟨i, _, hsym, hdigit, hrev⟩

section
variable {s : State} {v : Word} (hv : decNarrow s.config.ovfMode (decAcc s.d) = some v)
include hv

/-- A read of OBUF inside the group just stored. -/
theorem decArith_read_inside (k : Fin 4) : (decArith s).obuf.read (4 * s.gi + k.val) = (decUnpack v)[k.val] := by
  rw [decArith_obuf hv, read_writeSeq, dif_pos (by simp)]
  simp

/-- A read of OBUF outside the group just stored. -/
theorem decArith_read_outside {a : Nat} (h : a < 4 * s.gi ∨ 4 * s.gi + 4 ≤ a) :
    (decArith s).obuf.read a = s.obuf.read a := by
  rw [decArith_obuf hv, read_writeSeq, dif_neg (by rw [Vector.length_toList]; omega)]

/-- The working registers after the arithmetic of a group. -/
theorem decArith_registers :
    (decArith s).value = v ∧ (decArith s).b = decUnpack v ∧ (decArith s).c = s.c ∧ (decArith s).d = s.d := by
  rw [decArith_some hv]
  exact ⟨rfl, rfl, rfl, rfl⟩

end

/-- Settles O39: the core's move is the group's arithmetic, which goes on with the next group where DEC.NARROW gives a
word, and raises where it gives none. -/
theorem decodeArithmeticStep : Obligations.DecodeArithmeticStep := by
  intro s hleft hbusy hop hg hslot
  have hnext : busyNext s = decArith s := by
    rw [busyNext, if_neg (by rw [hop]; decide), if_pos hg, if_pos hslot]
  have hstep : step s = .next (decArith s) := hnext ▸ step_of_stepTo (.busy hbusy hleft)
  by_cases hok : s.config.ovfMode = .wrap ∨ decAcc s.d < 2 ^ 32
  · have hv := decNarrow_some hok
    obtain ⟨hsame, hgi, hslot'⟩ := decArith_next hv
    obtain ⟨hvalue, hb, hc, hd⟩ := decArith_registers hv
    refine ⟨decArith s, hstep, hsame.ibuf, hsame.op, hsame.inLen, hsame.config, hc, hd, hsame.pad, hsame.ng,
      hsame.host, fun _ => ⟨?_, ?_, hgi, hslot', ?_, fun a ha => decArith_read_outside hv ha,
        hsame.phase.trans hbusy, hsame.done, hsame.status, hsame.outLen, hsame.errIdx, hsame.errChar, hsame.fresh⟩,
      fun ⟨hlarge, hfault⟩ => ?_⟩
    · rw [hvalue, BitVec.toNat_ofNat]
    · rw [hb, hvalue]
    · rw [hb]
      exact decArith_read_inside hv
    · rcases hok with hwrap | hsmall
      · exact absurd (hwrap.symm.trans hfault) (by decide)
      · exact absurd hsmall (Nat.not_lt.mpr hlarge)
  · obtain ⟨hwrap, hlarge⟩ := not_or.mp hok
    have hfault : s.config.ovfMode = .fault := by
      cases hm : s.config.ovfMode with
      | wrap => exact absurd hm hwrap
      | fault => rfl
    rw [decArith_fault hfault (Nat.not_lt.mp hlarge)] at hstep
    refine ⟨_, hstep, rfl, rfl, rfl, rfl, rfl, rfl, rfl, rfl, rfl, fun hok' => absurd hok'.symm hok,
      fun _ => ⟨rfl, rfl, rfl, rfl, rfl, rfl, rfl, rfl, fun hinfo => ?_, fun hinfo => ⟨?_, ?_⟩⟩⟩
    · simp [errIdxAfter, hinfo]
    · rw [raiseError_errIdx, errIdxAfter_noInfo hinfo]
    · rw [raiseError_errChar, errCharAfter_noInfo hinfo]

end Sys2Proof.Machine
end

section
/-! How an error is reported: what the machine shows after DECODE ended with InvalidCharacter or ValueOverflow (R131,
R133, R134, R17). -/

namespace Sys2Proof.Machine

/-- Of an operation that ended with an error, the registers and the buffer that do not depend on ERR_INFO (R134). -/
structure Reports (e : Err) (t : State) : Prop where
  status : t.status = errStatus e
  outLen : t.outLen = 0
  phase : t.phase = .idle
  done : t.done = true
  unspecified : t.obuf.cells = []

theorem Ends.reports {s t : State} {e : Err} (h : Ends s (.error e) t) : Reports e t := by
  cases h
  exact ⟨rfl, rfl, rfl, rfl, rfl⟩

/-- A command that ended its operation wrote no diagnostic register where the two are absent (R17). -/
theorem Ends.errors_noInfo {s t : State} {r : Except Err (List Byte)} (h : Ends s r t)
    (hinfo : s.config.errInfo = .noInfo) : t.errIdx = s.errIdx ∧ t.errChar = s.errChar :=
  (CommandTo.ended h).keeps.errors hinfo

/-- A DECODE that fails on its input ends with that error. -/
theorem decRun_error {s : State} {e : Err} (h : decodeSeq s.config.ovfMode (inputSeq s) = .error e) :
    Ends s (.error e) (decRun s) :=
  h ▸ decRun_ends s

/-- Where START itself ends DECODE, both paces answer the same state. -/
theorem exec_decode_of_start_idle {s : State} (hready : Ready s) (hidle : (decStart s).phase = .idle) :
    exec .cmdDecode s = .next (decRun s) := by
  rw [exec_decode hready]
  cases s.config.pace with
  | collapsed => rfl
  | stepwise => exact congrArg Host.Outcome.next (decRun_of_idle hidle).symm

theorem inputSeq_getElem {s : State} {i : Nat} (h : i < (inputSeq s).length) : (inputSeq s)[i] = s.ibuf.read i := by
  simp [inputSeq, Buffer.take]

/-- The validation pass of START finds the lowest element of IBUF that reads as no symbol (R104). -/
theorem firstInvalid_inputSeq {s : State} {i : Nat} (hi : i < s.inLen) (hrev : rev (s.ibuf.read i) = none)
    (hlow : ∀ j, j < i → (rev (s.ibuf.read j)).isSome = true) :
    firstInvalid (inputSeq s) 0 = some (i, s.ibuf.read i) := by
  have hlen : i < (inputSeq s).length := by rwa [inputSeq_length]
  have hfirst := firstInvalid_some (i := 0) hlen (by rwa [inputSeq_getElem])
    (fun j hj => by rw [inputSeq_getElem]; exact hlow j hj)
  rwa [Nat.zero_add, inputSeq_getElem] at hfirst

/-- Settles O26: the validation pass finds the character, so START ends the operation under either pace. -/
theorem invalidCharacterIsReported : Obligations.InvalidCharacterIsReported := by
  intro s i hready hl hi hrev hlow
  have hfirst := firstInvalid_inputSeq hi hrev hlow
  have hidle : (decStart s).phase = .idle := by rw [decStart_invalid hl hfirst, raiseError_phase]
  have hends := decRun_error (decodeSeq_invalid (by rwa [inputSeq_length]) hfirst s.config.ovfMode)
  obtain ⟨hstatus, houtLen, hphase, hdone, hobuf⟩ := hends.reports
  exact ⟨decRun s, exec_decode_of_start_idle hready hidle, hstatus, houtLen, hphase, hdone, hobuf,
    fun hinfo => (hends.errorInfo hinfo).1 _ _ rfl, hends.errors_noInfo⟩

/-- Settles O27: the arithmetic pass ends at the lowest group that DEC.NARROW refuses. -/
theorem valueOverflowIsReported : Obligations.ValueOverflowIsReported := by
  intro s g hready hpace hfault hl hreads hg hlarge hlow
  rw [← inputSeq_length s] at hl hg
  have hends := decRun_error (hfault ▸ decodeSeq_overflow hl (validIn_of_reads hreads) hg hlarge hlow)
  obtain ⟨hstatus, houtLen, hphase, hdone, hobuf⟩ := hends.reports
  exact ⟨decRun s, exec_decode_collapsed hready hpace, hstatus, houtLen, hphase, hdone, hobuf,
    fun hinfo => (hends.errorInfo hinfo).2 _ rfl, fun hinfo => (hends.errors_noInfo hinfo).1⟩

end Sys2Proof.Machine
end

section
/-! START shown by itself, and START in BUSY (R154, R155, R157). -/

namespace Sys2Proof.Machine

/-- Settles O28: with PACE stepwise the command is START alone. -/
theorem encodeStartStepwise : Obligations.EncodeStartStepwise := by
  intro s hready hpace
  rw [exec_encode hready, hpace]
  rfl

/-- Settles O29: the two checks pass, so START goes on to the sizes and the first group. -/
theorem decodeStartStepwise : Obligations.DecodeStartStepwise := by
  intro s hready hpace hl hreads
  rw [exec_decode hready, hpace, decStart_ok hl (validIn_of_reads hreads)]
  rfl

theorem acceptStart_busy {s : State} (hbusy : s.phase = .busy) (run : State → State) :
    acceptStart s run = .refused .startWhileBusy := by
  rw [acceptStart, if_pos hbusy]

/-- Settles O31: both commands begin with the conditions of START. -/
theorem startInBusyIsRefused : Obligations.StartInBusyIsRefused :=
  fun s hbusy => ⟨
    (show exec .cmdEncode s = execEncode s from rfl).trans (acceptStart_busy hbusy _),
    (show exec .cmdDecode s = execDecode s from rfl).trans (acceptStart_busy hbusy _)⟩

end Sys2Proof.Machine
end

section
/-! One step, by the host's next move: which moves are answered, and with what (R30, R37, R150, R153 to R158). -/

namespace Sys2Proof.Machine

/-! ### Which steps answer -/

/-- A move that a step answers is one the spec gives the host. -/
theorem disciplined_of_stepTo {s t : State} (h : StepTo s t) : Disciplined s := by
  cases h with
  | idle hp hh => simp only [Disciplined, hh]
  | await rest hp hh => simp only [Disciplined, hh]
  | busy hp hleft => rcases hleft with hh | ⟨rest, hh⟩ <;> simp only [Disciplined, hh]
  | start rest hh hready => simpa only [Disciplined, hh] using hready
  | reset rest hh => simp only [Disciplined, hh]
  | writeOp v rest hp hh => simpa only [Disciplined, hh] using hp
  | writeLen n rest hp hh hn => simpa only [Disciplined, hh] using ⟨hp, hn⟩
  | writeIbuf i v rest hp hh hi => simpa only [Disciplined, hh] using ⟨hp, hi⟩

/-- A step answers every move that the spec gives the host. -/
theorem stepTo_of_disciplined {s : State} (h : Disciplined s) : ∃ t, StepTo s t := by
  rw [Disciplined] at h
  cases hh : s.host with
  | nil =>
    cases hp : s.phase with
    | idle => exact ⟨_, .idle hp hh⟩
    | busy => exact ⟨_, .busy hp (.inl hh)⟩
  | cons move rest =>
    rw [hh] at h
    cases move with
    | await =>
      cases hp : s.phase with
      | idle => exact ⟨_, .await rest hp hh⟩
      | busy => exact ⟨_, .busy hp (.inr ⟨rest, hh⟩)⟩
    | start => exact ⟨_, .start rest hh h⟩
    | reset => exact ⟨_, .reset rest hh⟩
    | writeOp v => exact ⟨_, .writeOp v rest h hh⟩
    | writeLen n =>
      obtain ⟨hp, hn⟩ := h
      exact ⟨_, .writeLen n rest hp hh hn⟩
    | writeIbuf i v =>
      obtain ⟨hp, hi⟩ := h
      exact ⟨_, .writeIbuf i v rest hp hh hi⟩

/-- Settles O46: the cases of a step are the moves of a disciplined host. -/
theorem stepAnswersExactlyTheDisciplinedHost : Obligations.StepAnswersExactlyTheDisciplinedHost := by
  intro s
  constructor
  · rintro ⟨t, h⟩
    exact disciplined_of_stepTo (stepTo_of_step h)
  · intro h
    obtain ⟨t, ht⟩ := stepTo_of_disciplined h
    exact ⟨t, step_of_stepTo ht⟩

/-! ### The host's move -/

theorem step_start {s : State} {rest : List HostMove} (hh : s.host = .start :: rest) :
    step s = exec (fetchCmd s) s := by
  rw [step, oneMove, hh]

theorem whenIdle_busy {s : State} (hbusy : s.phase = .busy) (answer : Host.Outcome State Fault Refusal) :
    whenIdle s answer = .refused .hostWriteWhileBusy := by
  rw [whenIdle, hbusy, if_neg (by decide)]

/-- Settles O49: each of the three writes is made in IDLE only. -/
theorem hostWritesInBusyAreRefused : Obligations.HostWritesInBusyAreRefused := by
  intro s rest hbusy
  refine ⟨fun v hh => ?_, fun n hh => ?_, fun i v hh => ?_⟩ <;> rw [step, oneMove, hh]
  · exact whenIdle_busy (s := { s with host := rest }) hbusy _
  · exact whenIdle_busy (s := { s with host := rest }) hbusy _
  · exact whenIdle_busy (s := { s with host := rest }) hbusy _

/-- Settles O41: the two cases of a step in IDLE that leave the core alone. -/
theorem idleStep : Obligations.IdleStep :=
  fun _ hidle => ⟨fun hh => step_of_stepTo (.idle hidle hh), fun rest hh => step_of_stepTo (.await rest hidle hh)⟩

/-- Settles O42: the reset event is a case of a step in either phase. -/
theorem resetEventStep : Obligations.ResetEventStep :=
  fun _ rest hh => ⟨_, step_of_stepTo (.reset rest hh), rfl, rfl, rfl, rfl, rfl, rfl⟩

/-! ### The core's move -/

/-- In BUSY a host that makes no move leaves the step to the core. -/
theorem step_leftAlone {s : State} (hleft : LeftAlone s) (hbusy : s.phase = .busy) : step s = busyStep s := by
  rcases hleft with hh | ⟨rest, hh⟩ <;> rw [step, oneMove, hh] <;> simp only [coreMove, hbusy]

/-- While a group of DECODE is looked up, the core's move is the symbol that the next character decodes to. -/
theorem busyStep_symbol {s : State} {i : Instr} (hop : s.op = 1#1) (hg : s.gi < s.ng) (hslot : s.slot ≠ 5)
    (hsym : decodeSym (decLoad s) = .ok i) : busyStep s = exec i s := by
  rw [busyStep, if_neg (by rw [hop]; decide), if_pos hg, decBusy, if_neg hslot, fetchSym, hsym]

/-- Settles O37: START runs the command fetched from OP, a look-up the symbol fetched from the text. -/
theorem stepRunsTheInstruction : Obligations.StepRunsTheInstruction := by
  refine ⟨fun s rest hh => step_start hh, fun s i hh hbusy hop hg hslot hsym => ?_,
    fun s i rest hh hbusy hop hg hslot hsym => ?_⟩
  · rw [step_leftAlone (.inl hh) hbusy, busyStep_symbol hop hg hslot hsym]
  · rw [step_leftAlone (.inr ⟨rest, hh⟩) hbusy, busyStep_symbol hop hg hslot hsym]

/-- With no group left the core's move is DONE, the result cut to the length of the command in OP (R87, R110). -/
theorem busyNext_done {s : State} (h : s.gi = s.ng) :
    busyNext s = signalDone (if s.op = 0#1 then encTrunc s.ng s.pad else decTrunc s.ng s.pad) s := by
  have hg : ¬s.gi < s.ng := by omega
  rw [busyNext, if_neg hg, if_neg hg]
  split <;> rfl

/-- Below the cut a truncated buffer lists what it listed before. -/
theorem lookup_truncated_below (m : Buffer) (draw : Nat) {n a : Nat} (h : a < n) :
    lookupCell (m.truncate n draw).cells a = lookupCell m.cells a := by
  rw [Buffer.truncate, lookupCell_filter, if_pos h]

/-- Settles O40: DONE writes the result registers and cuts OBUF at OUT_LEN. -/
theorem doneStep : Obligations.DoneStep := by
  intro s hleft hbusy hg
  refine ⟨_, step_of_stepTo (.busy hbusy hleft), ?_⟩
  rw [busyNext_done hg]
  refine ⟨rfl, rfl, rfl, rfl, fun a ha => lookup_truncated_below _ _ ha, fun a ha => lookup_truncated _ _ _ _ ha,
    rfl, rfl, rfl, rfl, rfl, rfl, rfl, rfl, rfl, rfl, rfl, rfl, fun hinfo => ⟨?_, ?_⟩⟩
  · rw [signalDone_errIdx, errIdxAfter_noInfo hinfo]
  · rw [signalDone_errChar, errCharAfter_noInfo hinfo]

end Sys2Proof.Machine
end

section
/-! Right after reset (R19, R150). -/

namespace Sys2Proof.Machine

/-- Settles O43: the fields of the reset state. -/
theorem resetState : Obligations.ResetState := ⟨rfl, rfl, rfl, rfl, rfl⟩

/-- The draws of the two buffers right after reset are apart from each other and from every later draw (log 2). -/
theorem reset_draws :
    State.reset.ibuf.gen < State.reset.fresh ∧ State.reset.obuf.gen < State.reset.fresh ∧
      State.reset.ibuf.gen ≠ State.reset.obuf.gen := by decide

/-- Settles O58: the core is in IDLE with no DONE signalled and no buffer element listed, its two draws are distinct and
taken, and the length registers hold 0. -/
theorem invariantsHoldAtReset : Obligations.InvariantsHoldAtReset := by
  intro cfg s
  obtain ⟨hibuf, hobuf⟩ := reset_memory_wf
  exact ⟨⟨hibuf, hobuf, nofun, reset_draws⟩, resultInv_of_notDone rfl, sequenceInv_of_idle rfl,
    ⟨fitsLen_zero _, fitsLen_zero _, fitsLen_zero _, nofun⟩, roomInv_of_unlisted rfl⟩

end Sys2Proof.Machine
end

section
/-! What the host reads when an operation has ended (R17, R130, R159). -/

namespace Sys2Proof.Machine

/-- When an operation has ended, the result registers are valid (R159). -/
theorem Ends.readable {s t : State} {r : Except Err (List Byte)} (h : Ends s r t) : resultsReadable t = true := by
  rw [resultsReadable, h.phase, h.done]; rfl

theorem Ends.readPhase {s t : State} {r : Except Err (List Byte)} (h : Ends s r t) : hostReadPhase t = 0 := by
  rw [hostReadPhase, h.phase]

theorem Ends.readStatus {s t : State} {r : Except Err (List Byte)} (h : Ends s r t) :
    hostReadStatus t = statusCode t.status := by
  rw [hostReadStatus, if_pos h.readable]

theorem Ends.readOutLen {s t : State} {r : Except Err (List Byte)} (h : Ends s r t) :
    hostReadOutLen t = t.outLen := by
  rw [hostReadOutLen, if_pos h.readable]

/-- After success each element below OUT_LEN reads as it stands in OBUF (R159). -/
theorem Ends.readResult {s t : State} {out : List Byte} (h : Ends s (.ok out) t) : hostReadResult t = outputSeq t := by
  obtain ⟨hstatus, -, -⟩ := h.ok
  rw [hostReadResult, h.readOutLen]
  refine List.map_congr_left fun i hi => ?_
  rw [hostReadObuf, if_pos]
  simp [h.readable, hstatus, List.mem_range.mp hi]

/-- After success the host reads PHASE 0, STATUS 0, the length of the outcome and the outcome. -/
theorem Ends.reads_ok {s t : State} {out : List Byte} (h : Ends s (.ok out) t) :
    hostReadPhase t = 0 ∧ hostReadStatus t = 0 ∧ hostReadOutLen t = out.length ∧ hostReadResult t = out := by
  obtain ⟨hstatus, hlen, hout⟩ := h.ok
  refine ⟨h.readPhase, ?_, h.readOutLen.trans hlen, h.readResult.trans hout⟩
  rw [h.readStatus, hstatus]; rfl

/-- Settles O51: each command ends with the outcome of its function on sequences, which is what the host reads. -/
theorem hostReadsTheResult : Obligations.HostReadsTheResult := by
  intro s t _ hpace
  refine ⟨fun h => (exec_encode_ends hpace h).reads_ok, fun out h hout => ?_⟩
  have hends := exec_decode_ends hpace h
  rw [hout] at hends
  exact hends.reads_ok

/-- Settles O52: the host reads the registers that `raise` wrote; the two diagnostic ones are valid for the errors that
define them. -/
theorem hostReadsTheError : Obligations.HostReadsTheError := by
  intro s t e _ hpace h he
  have hends := exec_decode_ends hpace h
  rw [he] at hends
  obtain ⟨hstatus, hlen, -⟩ := hends.error
  refine ⟨hends.readPhase, by rw [hends.readStatus, hstatus], hends.readOutLen.trans hlen, fun hinfo => ?_⟩
  obtain ⟨hchar, hover⟩ := hends.errorInfo hinfo
  have hinfo' : t.config.errInfo = .indexAndChar := hends.config ▸ hinfo
  constructor
  · rintro i x rfl
    obtain ⟨hidx, hch⟩ := hchar i x rfl
    simp [hostReadErrIdx, hostReadErrChar, hends.readable, hinfo', hstatus, errStatus, hidx, hch]
  · rintro i rfl
    simp [hostReadErrIdx, hends.readable, hinfo', hstatus, errStatus, hover i rfl]

end Sys2Proof.Machine
end

section
/-! Every operation ends: the moves of the core that are left until DONE, counted, and every run of them (R116, R156,
R163). -/

namespace Sys2Proof.Machine

/-- How many moves of the core are left at most: one for each group left of ENCODE, six for each of DECODE but for the
characters already looked up, and one for DONE. -/
def movesLeft (s : State) : Nat :=
  match s.phase with
  | .idle => 0
  | .busy => (if s.op = 0#1 then s.ng - s.gi else 6 * (s.ng - s.gi) - s.slot.val) + 1

theorem movesLeft_idle {s : State} (h : s.phase = .idle) : movesLeft s = 0 := by
  rw [movesLeft, h]

theorem movesLeft_encode {s : State} (hb : s.phase = .busy) (hop : s.op = 0#1) :
    movesLeft s = s.ng - s.gi + 1 := by
  rw [movesLeft, hb, if_pos hop]

theorem movesLeft_decode {s : State} (hb : s.phase = .busy) (hop : s.op ≠ 0#1) :
    movesLeft s = 6 * (s.ng - s.gi) - s.slot.val + 1 := by
  rw [movesLeft, hb, if_neg hop]

theorem movesLeft_pos {s : State} (hb : s.phase = .busy) : 0 < movesLeft s := by
  rw [movesLeft, hb]
  exact Nat.succ_pos _

theorem movesLeft_le {s : State} (hb : s.phase = .busy) : movesLeft s ≤ 6 * (s.ng - s.gi) + 1 := by
  by_cases hop : s.op = 0#1
  · rw [movesLeft_encode hb hop]; omega
  · rw [movesLeft_decode hb hop]; omega

theorem movesLeft_encStart {s : State} (hop : s.op = 0#1) :
    movesLeft (encStart s) = encGroupCount s.inLen + 1 :=
  movesLeft_encode (s := encStart s) rfl hop

theorem movesLeft_decBegun {s : State} (hop : s.op ≠ 0#1) :
    movesLeft (decBegun s) = 6 * decGroupCount s.inLen + 1 :=
  movesLeft_decode (s := decBegun s) rfl hop

/-- Every move of the core is one less left. -/
theorem movesLeft_of_coreMove {s t : State} (hb : s.phase = .busy) (hmove : CoreMove s t) :
    movesLeft t < movesLeft s := by
  cases hmove with
  | encGroup hop hg =>
    have hsame := encGroup_same s
    rw [movesLeft_encode hb hop, movesLeft_encode (hsame.phase.trans hb) (hsame.op.trans hop), hsame.ng, encGroup_gi]
    omega
  | takeSymbol dg hop hg hslot hr =>
    have hlt : s.slot.val < 5 := by omega
    rw [movesLeft_decode hb hop, movesLeft_decode (s := takeSymbol _ dg s) hb hop, takeSymbol_slot_val hlt,
      takeSymbol_ng, takeSymbol_gi]
    omega
  | decArith v hop hg hslot hv =>
    obtain ⟨hsame, hgi, hslot'⟩ := decArith_next hv
    have hfive : s.slot.val = 5 := congrArg Fin.val hslot
    rw [movesLeft_decode hb hop, movesLeft_decode (hsame.phase.trans hb) (hsame.op ▸ hop), hsame.ng, hgi, hslot']
    omega
  | encDone | noSymbol | overflow | decDone =>
    rw [movesLeft_idle rfl]
    exact movesLeft_pos hb

/-- A move of the core ends in IDLE only with DONE signalled. -/
theorem done_of_coreMove_idle {s t : State} (hb : s.phase = .busy) (hmove : CoreMove s t) (ht : t.phase = .idle) :
    t.done = true := by
  cases hmove with
  | encGroup => exact absurd (hb.symm.trans ((encGroup_same s).phase.symm.trans ht)) (by decide)
  | takeSymbol => exact absurd (hb.symm.trans ht) (by decide)
  | decArith v hop hg hslot hv =>
    exact absurd (hb.symm.trans ((decArith_next hv).1.phase.symm.trans ht)) (by decide)
  | encDone | noSymbol | overflow | decDone => rfl

/-- The core does not take the host's moves. -/
theorem coreMove_host {s t : State} (h : CoreMove s t) : t.host = s.host := by
  cases h with
  | encGroup => exact (encGroup_same s).host
  | decArith v hop hg hslot hv => exact (decArith_next hv).1.host
  | encDone | takeSymbol | noSymbol | overflow | decDone => rfl

/-- A core in BUSY that is left alone reaches DONE in the moves that are left. -/
theorem run_reaches_done (n : Nat) {s : State} (hb : s.phase = .busy) (hleft : LeftAlone s) (hn : movesLeft s ≤ n) :
    ∃ k t, k ≤ n ∧ core.run k s = .next t ∧ t.phase = .idle ∧ t.done = true := by
  induction n generalizing s with
  | zero => exact absurd (movesLeft_pos hb) (Nat.not_lt.mpr hn)
  | succ n ih =>
    have hmove := coreMove_busyNext s
    have hstep := step_of_stepTo (.busy hb hleft)
    have hfewer := movesLeft_of_coreMove hb hmove
    cases hp : (busyNext s).phase with
    | idle =>
      exact ⟨1, busyNext s, Nat.succ_le_succ (Nat.zero_le n), run_succ 0 s _ hstep, hp,
        done_of_coreMove_idle hb hmove hp⟩
    | busy =>
      have hleft' : LeftAlone (busyNext s) := by rwa [LeftAlone, coreMove_host hmove]
      obtain ⟨k, t, hk, hrun, hend⟩ := ih hp hleft' (by omega)
      exact ⟨k + 1, t, Nat.succ_le_succ hk, (run_succ k s _ hstep).trans hrun, hend⟩

/-- Settles O47: every move of the core brings DONE nearer, and each group left takes at most six. -/
theorem everyOperationEnds : Obligations.EveryOperationEnds :=
  fun _ hb hleft => run_reaches_done _ hb hleft (movesLeft_le hb)

end Sys2Proof.Machine
end

section
/-! An operation shown step by step ends in the state of the single transition (R155): the states between START and DONE
of the single transition are those the stepwise run comes to, PACE apart. -/

namespace Sys2Proof.Machine

/-! ### PACE takes no part in the core's moves -/

theorem withPace_eq_self {p : Pace} {s : State} (h : s.config.pace = p) : withPace p s = s := by
  subst h; rfl

/-- The core's move in BUSY is the only one it can make. -/
theorem busyNext_of_coreMove {s t : State} (h : CoreMove s t) : busyNext s = t := by
  cases h with
  | encGroup hop hg => rw [busyNext, if_pos hop, if_pos hg]
  | encDone hop hg => rw [busyNext, if_pos hop, if_neg hg]
  | takeSymbol dg hop hg hslot hr => rw [busyNext, if_neg hop, if_pos hg, if_neg hslot, decLookup_symbol hr]
  | noSymbol hop hg hslot hr => rw [busyNext, if_neg hop, if_pos hg, if_neg hslot, decLookup_noSymbol hr]
  | decArith v hop hg hslot hv => rw [busyNext, if_neg hop, if_pos hg, if_pos hslot]
  | overflow hop hg hslot hv => rw [busyNext, if_neg hop, if_pos hg, if_pos hslot, decArith_none hv]
  | decDone hop hg => rw [busyNext, if_neg hop, if_neg hg]

/-- A move of the core is the same under either pace. -/
theorem coreMove_withPace (p : Pace) {s t : State} (h : CoreMove s t) : CoreMove (withPace p s) (withPace p t) := by
  cases h with
  | encGroup hop hg => exact .encGroup (s := withPace p s) hop hg
  | encDone hop hg => exact .encDone (s := withPace p s) hop hg
  | takeSymbol dg hop hg hslot hr => exact .takeSymbol (s := withPace p s) dg hop hg hslot hr
  | noSymbol hop hg hslot hr => exact .noSymbol (s := withPace p s) hop hg hslot hr
  | decArith v hop hg hslot hv =>
    have hmove := CoreMove.decArith (s := withPace p s) v hop hg hslot hv
    rw [decArith_some (s := withPace p s) hv] at hmove
    rw [decArith_some hv]
    exact hmove
  | overflow hop hg hslot hv => exact .overflow (s := withPace p s) hop hg hslot hv
  | decDone hop hg => exact .decDone (s := withPace p s) hop hg

theorem startNext_encode_stepwise {s : State} (hpace : s.config.pace = .stepwise) (hop : s.op = 0#1) :
    startNext s = encStart s := by
  rw [startNext, if_pos hop, hpace]

theorem startNext_decode_stepwise {s : State} (hpace : s.config.pace = .stepwise) (hop : s.op ≠ 0#1) :
    startNext s = decStart s := by
  rw [startNext, if_neg hop, hpace]

/-- What START alone can do is what it does with PACE stepwise. -/
theorem startNext_stepwise {s t : State} (h : StartTo s t) :
    startNext (withPace .stepwise s) = withPace .stepwise t := by
  cases h with
  | encStart hop => exact startNext_encode_stepwise (s := withPace .stepwise s) rfl hop
  | malformed hop hl =>
    rw [startNext_decode_stepwise (s := withPace .stepwise s) rfl hop]
    exact decStart_malformed (s := withPace .stepwise s) hl
  | invalid i x hop hl hx =>
    rw [startNext_decode_stepwise (s := withPace .stepwise s) rfl hop]
    exact decStart_invalid (s := withPace .stepwise s) hl hx
  | decBegun hop hl hv =>
    rw [startNext_decode_stepwise (s := withPace .stepwise s) rfl hop]
    exact decStart_ok (s := withPace .stepwise s) hl hv

/-- With PACE collapsed START ends the operation. -/
theorem startNext_ends {s : State} (h : s.config.pace = .collapsed) : ∃ r, Ends s r (startNext s) := by
  rw [startNext, h]
  split
  · exact ⟨_, encRun_ends s⟩
  · exact ⟨_, decRun_ends s⟩

/-! ### The stepwise run -/

theorem run_add {m : Nat} {s t : State} (n : Nat) (h : core.run m s = .next t) : core.run (m + n) s = core.run n t := by
  induction m generalizing s with
  | zero => cases h; rw [Nat.zero_add]
  | succ m ih =>
    cases hs : step s with
    | next u =>
      rw [run_succ m s u hs] at h
      rw [Nat.succ_add, run_succ _ s u hs, ih h]
    | fault r => simp [Host.Core.run, core, hs] at h
    | refused r => simp [Host.Core.run, core, hs] at h

/-- In IDLE, with no move of the host, a run stays where it is. -/
theorem run_idle (n : Nat) {s : State} (hidle : s.phase = .idle) (hh : s.host = []) : core.run n s = .next s := by
  induction n with
  | zero => rfl
  | succ n ih => rw [run_succ n s s (step_of_stepTo (.idle hidle hh)), ih]

/-- The run of `s` with PACE stepwise comes to `u`, with the host's moves all taken, so early that the moves left in `u`
end it within `N` steps. -/
def StepsTo (N : Nat) (s u : State) : Prop :=
  u.host = [] ∧ ∃ n, n + movesLeft u ≤ N ∧ core.run n (withPace .stepwise s) = .next (withPace .stepwise u)

/-- The stepwise run follows every move of the core. -/
theorem StepsTo.coreMove {N : Nat} {s u v : State} (h : StepsTo N s u) (hb : u.phase = .busy) (hmove : CoreMove u v) :
    StepsTo N s v := by
  obtain ⟨hh, n, hn, hrun⟩ := h
  have hfewer := movesLeft_of_coreMove hb hmove
  have hstep : step (withPace .stepwise u) = .next (withPace .stepwise v) := by
    rw [← busyNext_of_coreMove (coreMove_withPace .stepwise hmove)]
    exact step_of_stepTo (.busy (s := withPace .stepwise u) hb (.inl hh))
  refine ⟨(coreMove_host hmove).trans hh, n + 1, by omega, ?_⟩
  rw [run_add 1 hrun]
  exact run_succ 0 _ _ hstep

/-- START leaves the host the moves behind START. -/
theorem startTo_host {s t : State} (h : StartTo s t) : t.host = dropStart s.host := by
  cases h with
  | encStart | malformed | invalid | decBegun => rfl

/-- The first step of the stepwise run is START. -/
theorem stepsTo_of_startTo {N : Nat} {s t : State} (hready : Ready s) (hh : s.host = [.start]) (h : StartTo s t)
    (hN : movesLeft t < N) : StepsTo N s t := by
  have hstep : step (withPace .stepwise s) = .next (withPace .stepwise t) := by
    rw [← startNext_stepwise h]
    exact step_of_stepTo (.start (s := withPace .stepwise s) [] hh hready)
  refine ⟨?_, 1, by omega, run_succ 0 _ _ hstep⟩
  rw [startTo_host h, hh]; rfl

/-- An operation whose START leaves less than `N` moves ends within `N` steps of the stepwise run, in the state that the
single transition answers. -/
theorem stepwise_refines_collapsed {N : Nat} {s : State} (hready : Ready s) (hh : s.host = [.start])
    (hN : ∀ t, StartTo (withPace .collapsed s) t → movesLeft t < N) :
    ∃ t, step (withPace .collapsed s) = .next (withPace .collapsed t) ∧
      core.run N (withPace .stepwise s) = .next (withPace .stepwise t) ∧ t.phase = .idle ∧ t.done = true := by
  obtain ⟨r, hends⟩ := startNext_ends (s := withPace .collapsed s) rfl
  have hsteps : StepsTo N (withPace .collapsed s) (startNext (withPace .collapsed s)) :=
    startNext_keeps (fun _ _ hu hb hmove => hu.coreMove hb hmove)
      fun t ht => stepsTo_of_startTo hready hh ht (hN t ht)
  have hpace : (startNext (withPace .collapsed s)).config.pace = .collapsed :=
    congrArg Config.pace (startNext_config (withPace .collapsed s))
  have hcollapsed := step_of_stepTo (.start (s := withPace .collapsed s) [] hh hready)
  generalize startNext (withPace .collapsed s) = t at *
  obtain ⟨hht, n, hn, hrun⟩ := hsteps
  refine ⟨t, by rw [hcollapsed, withPace_eq_self hpace], ?_, hends.phase, hends.done⟩
  have hrest : core.run (n + (N - n)) (withPace .stepwise s) = .next (withPace .stepwise t) :=
    (run_add _ hrun).trans (run_idle _ hends.phase hht)
  rwa [Nat.add_sub_of_le (by omega)] at hrest

/-- Settles O59: START of ENCODE leaves a move for each group and DONE. -/
theorem encodeStepsRefineTheCommand : Obligations.EncodeStepsRefineTheCommand := by
  intro s hready hop hh
  refine stepwise_refines_collapsed hready hh fun t ht => ?_
  cases ht with
  | encStart hop' =>
    rw [movesLeft_encStart hop']
    exact Nat.lt_succ_self _
  | malformed hop' | invalid _ _ hop' | decBegun hop' => exact absurd hop hop'

/-- Settles O60: START of DECODE ends it, or leaves six moves for each group and DONE. -/
theorem decodeStepsRefineTheCommand : Obligations.DecodeStepsRefineTheCommand := by
  intro s hready hop hh
  have hop0 : s.op ≠ 0#1 := by rw [hop]; decide
  refine stepwise_refines_collapsed hready hh fun t ht => ?_
  cases ht with
  | encStart hop' => exact absurd hop' hop0
  | malformed | invalid => rw [movesLeft_idle rfl]; exact Nat.succ_pos _
  | decBegun hop' =>
    rw [movesLeft_decBegun hop']
    exact Nat.lt_succ_self _

end Sys2Proof.Machine
end
